-- ==== Sys2Proof/Word.lean ====
section
/-! DEFINITION. The word types of the block: bytes, 16-bit duty values, 32-bit registers (00_scope.md R16, 10_state.md). -/

namespace Sys2Proof

/-- One byte of a byte stream (PackedWaveform, control channel, echo). -/
abbrev Byte := BitVec 8

/-- A duty value: "duty value width 16 bits, unsigned" (00_scope.md section 4). -/
abbrev Duty := BitVec 16

/-- A host register or a BIN32 pattern: 32 bits. -/
abbrev Word := BitVec 32

end Sys2Proof
end

