-- ==== Sys2Proof/Config.lean ====
section
/-! DEFINITION. What an implementation fixes (the parameters of 00_scope.md R6 to R15) and what the spec leaves free
(the order of the agents' steps and the environment's inputs, U10 to U13; the scaler's latency, U12). -/

namespace Sys2Proof

/-- SHIFT_FORM (R9): FLOOR (0, normative) or REFERENCE (1). -/
inductive ShiftForm
  | floor
  | reference
deriving DecidableEq, Repr, Inhabited

/-- SHIFT_FORM as bit 16 of PARAMS (R49). -/
def ShiftForm.bit : ShiftForm → Bool
  | .floor => false
  | .reference => true

/-- The implementation parameters. "the model takes it as an argument" (R6): they stand in the state as constants that no
step changes, so that every statement about every state is a statement about every setting of them. -/
structure Params where
  /-- DATA_CAP (R6): samples retained, and entries of SAMPLE and LUT. -/
  dataCap : Nat
  /-- LINE_MAX (R7): content bytes the line buffer holds. -/
  lineMax : Nat
  /-- TX_DEPTH (R8): bytes the transmit queue holds. -/
  txDepth : Nat
  /-- SHIFT_FORM (R9). -/
  shiftForm : ShiftForm
  /-- F_CLK in hertz (R10, "a positive parameter"). DESIGN CHOICE (log 18): a whole number of hertz, which R10 does not say. -/
  fClk : Nat
  /-- TICK_CYCLES (R11). -/
  tickCycles : Nat
  /-- CMD_IDLE_CYCLES (R12). -/
  cmdIdleCycles : Nat
  /-- PWM_PRESCALE (R13). -/
  pwmPrescale : Nat
  /-- BASE (R15): where the platform puts the 256-byte register space. -/
  base : Nat
deriving DecidableEq, Repr, Inhabited

/-- The ranges the spec gives the parameters: R6, R7, R8, R10, R11, R12, R13. DEDUCED (log 9): `cp` and `presc` are 32-bit
counters that must be able to hold CMD_IDLE_CYCLES and PWM_PRESCALE - 1, which bounds those two above. -/
abbrev Params.Valid (p : Params) : Prop :=
  (1 ≤ p.dataCap ∧ p.dataCap < 2 ^ 32) ∧ (3 ≤ p.lineMax ∧ p.lineMax ≤ 65535) ∧
  p.lineMax + 16 ≤ p.txDepth ∧ 1 ≤ p.fClk ∧ (1 ≤ p.tickCycles ∧ p.tickCycles < 2 ^ 32) ∧
  (1 ≤ p.cmdIdleCycles ∧ p.cmdIdleCycles < 2 ^ 32) ∧ (1 ≤ p.pwmPrescale ∧ p.pwmPrescale ≤ 2 ^ 32)

/-- The byte offset a platform address selects in the block placed at BASE (R15, R69): `addr[7:0]` inside the 256 bytes. -/
def Params.offsetOf (p : Params) (hostAddr : Nat) : Option (BitVec 8) :=
  if p.base ≤ hostAddr ∧ hostAddr < p.base + 256 then some (BitVec.ofNat 8 (hostAddr - p.base)) else none

/-- The intended cadence (R11): TICK_CYCLES is F_CLK / 60 rounded to the nearest integer. Not required by any rule. DESIGN
CHOICE (log 18): an exact half, which R11 leaves open, is rounded up. -/
abbrev Params.Cadence60Hz (p : Params) : Prop := p.tickCycles = (p.fClk + 30) / 60

/-- The recommendation of R182: each duty value reaches the pin. "not a rule the model checks". -/
abbrev Params.EverySampleOnPin (p : Params) : Prop := 65535 * p.pwmPrescale ≤ p.tickCycles

/-- DESIGN CHOICE (log 2): the setting `State.reset` uses. DATA_CAP, LINE_MAX, TX_DEPTH and SHIFT_FORM are the test
choices of 95_test_vectors.md; F_CLK, TICK_CYCLES and PWM_PRESCALE are the numbers of R182 (3932100 Hz at prescale 1). -/
def Config.testParams : Params :=
  { dataCap := 16, lineMax := 64, txDepth := 80, shiftForm := .floor, fClk := 3932100, tickCycles := 65535,
    cmdIdleCycles := 393210, pwmPrescale := 1, base := 0 }

/-- The agents of R161, and `clk`: one clock cycle of the timed block (R120, R121, R130). -/
inductive Agent
  | host | scaler | tickDue | tick | dispatch | rxenv | txenv | pwmgen | clk
deriving DecidableEq, Repr, Inhabited

/-- The levels the environment drives on the input ports (R61) during one step; `clk` is a turn of its own. -/
structure Inputs where
  rst : Bool := false
  busValid : Bool := false
  busWrite : Bool := false
  busAddr : BitVec 8 := 0
  busWdata : Word := 0
  busWstrb : BitVec 4 := 0
  rxValid : Bool := false
  rxData : Byte := 0
  txReady : Bool := false
  drvFault : Bool := false
deriving DecidableEq, Repr, Inhabited

/-- One turn of the total order of steps (R71): which agent moves, and the input levels while it does. -/
structure Turn where
  agent : Agent
  inputs : Inputs
deriving DecidableEq, Repr, Inhabited

/-- A FREE VALUE (log 1): the n-th turn that nothing has fixed yet. "A model's scheduler picks any enabled step" (R161) and
"the environment inputs `drv_fault` and `tx_ready` are drawn freely by a model at each step" (93, note on U7 and U17). -/
opaque Config.environment : Nat → Turn

/-- A FREE VALUE (R14, log 10): SCALE_LATENCY, "finite, may depend on LEN". No rule of the untimed model reads it. -/
opaque Config.scaleLatency : Nat → Nat

end Sys2Proof
end

