-- ==== Sys2Proof/Syntax.lean ====
section
/-! DEFINITION. The operations the block accepts (00_scope.md R2): one constructor per mnemonic and format of
spec/opcode_table.json (log 14), and the register names of 10_state.md R26. -/

namespace Sys2Proof

/-- The 24 registers of R26. "Registers are named, not numbered" (R17). -/
inductive Reg
  | id | cmd | status | errCode | errInfo | loadData | loadPos | declCount | len | maxBright | dynRange | timeIndex
  | pwm0Duty | pwm1Duty | tickCount | tblAddr | lutData | sampleData | lineCount | lastCmd | irqEn | cap | params
  | tickCycles
deriving DecidableEq, Repr, Inhabited

/-- The whitespace set WS of R21. -/
def wsBytes : List Byte := [0x09, 0x0A, 0x0B, 0x0C, 0x0D, 0x20]

/-- "on" (R20). -/
def onBytes : List Byte := [0x6F, 0x6E]

/-- "off" (R20). -/
def offBytes : List Byte := [0x6F, 0x66, 0x66]

/-- LF, the line terminator (R88). -/
def lfByte : Byte := 0x0A

/-- "one of {TurnOn, TurnOff, Unrecognized}" (R89). -/
inductive Command
  | turnOn | turnOff | unrecognized
deriving DecidableEq, Repr, Inhabited

/-- The operations. Operands are the fields the table and 30_encoding.md give each word; ignored bits are kept as operands,
so that no bit of an encoding is dropped. -/
inductive Instr
  /-- BUS_MISALIGNED on a write (R136): `addr[1:0] != 0`, any strobe, any data. -/
  | busMisalignedW (wstrb : BitVec 4) (addr : BitVec 8) (wdata : Word)
  /-- BUS_MISALIGNED on a read (R136). -/
  | busMisalignedR (addr : BitVec 8)
  /-- NOP (R147): CMD word 0. -/
  | nop
  /-- LOAD_COMMIT (R97): CMD word 1. -/
  | loadCommit
  /-- SCALE (R104): CMD word 2. -/
  | scale
  /-- START (R118): CMD word 3. -/
  | start
  /-- CMD_ILLEGAL (R148): any other CMD word. -/
  | cmdIllegal (wdata : Word)
  /-- WR STATUS, v (R144). -/
  | wrStatus (v : Word)
  /-- LDB b (R96): `wdata[7:0]` and the ignored `wdata[31:8]`. -/
  | ldb (b : Byte) (ignored : BitVec 24)
  /-- WR MAX_BRIGHT, v (R102). -/
  | wrMaxBright (v : Word)
  /-- WR DYN_RANGE, v (R103). -/
  | wrDynRange (v : Word)
  /-- WR TBL_ADDR, v (R145). -/
  | wrTblAddr (v : Word)
  /-- WR IRQ_EN, v (R146): `v[0]` is used, `v[31:1]` ignored. -/
  | wrIrqEn (v : Word)
  /-- BUS_UNMAPPED on a write (R138): aligned, full strobe, offset 0x60 or above. -/
  | busUnmappedW (addr : BitVec 8) (wdata : Word)
  /-- BUS_UNMAPPED on a read (R138). -/
  | busUnmappedR (addr : BitVec 8)
  /-- WR_RO (R143): a write to a read-only register. -/
  | wrRo (r : Reg) (wdata : Word)
  /-- BUS_PARTIAL (R137): aligned write with a strobe other than 0xF. -/
  | busPartial (wstrb : BitVec 4) (addr : BitVec 8) (wdata : Word)
  /-- RD_WO (R140): a read of CMD or LOAD_DATA. -/
  | rdWo (r : Reg)
  /-- RD_LUT (R141): a read of LUT_DATA. -/
  | rdLut
  /-- RD_SAMPLE (R142): a read of SAMPLE_DATA. -/
  | rdSample
  /-- RD REG (R139): a read of any other register. -/
  | rd (r : Reg)
  /-- LINE_ON (R127): the trimmed line is `on` and the line is not overlong. -/
  | lineOn
  /-- LINE_OFF (R128): the trimmed line is `off` and the line is not overlong. -/
  | lineOff
  /-- LINE_OTHER (R129): any other trimmed text, or an overlong line. -/
  | lineOther (text : List Byte) (ovf : Bool)
  /-- SCALER_STEP (R105). -/
  | scalerStep
  /-- TICK_DUE (R120). -/
  | tickDue
  /-- TICK_STEP (R119). -/
  | tickStep
  /-- RX_ACCEPT (R125): the byte the environment offers. -/
  | rxAccept (b : Byte)
  /-- DISPATCH (R126). -/
  | dispatch
  /-- TX_DEPART (R131). -/
  | txDepart
  /-- PWM_RELOAD (R121). -/
  | pwmReload
  /-- RESET (R173). -/
  | reset
deriving DecidableEq, Repr, Inhabited

/-- What the block decodes (R79): a 44-bit write word, an 8-bit read word, or the kept bytes of a complete control line
with its overlong flag. -/
inductive Wire
  | busw (w : BitVec 44)
  | busr (a : BitVec 8)
  | line (kept : List Byte) (ovf : Bool)
deriving DecidableEq, Repr

end Sys2Proof
end

