-- ==== Sys2Proof/WellFormed.lean ====
section
/-! DEFINITION. Which operands an instruction can have: exactly those that some word of its row decodes to
(30_encoding.md R89, R91). -/

namespace Sys2Proof

/-- The registers a write to which is WR_RO (R143). -/
def Reg.readOnly : Reg → Bool
  | .cmd | .loadData | .status | .maxBright | .dynRange | .tblAddr | .irqEn => false
  | _ => true

/-- The registers a read of which is RD_WO (R140). -/
def Reg.writeOnly : Reg → Bool
  | .cmd | .loadData => true
  | _ => false

/-- The registers a read of which is RD (R139): not write-only, not one of the two windows. -/
def Reg.plainRead : Reg → Bool
  | .cmd | .loadData | .lutData | .sampleData => false
  | _ => true

/-- No whitespace byte at either end: what `strip` leaves (R21). -/
def trimmed (t : List Byte) : Bool :=
  (t.head?.all fun b => !wsBytes.contains b) && (t.getLast?.all fun b => !wsBytes.contains b)

/-- Operands in the range their row admits. A text holds no LF (R88) and at most 65535 bytes, the largest LINE_MAX (R7). -/
def Instr.wf : Instr → Bool
  | .busMisalignedW _ addr _ | .busMisalignedR addr => addr.extractLsb' 0 2 != 0#2
  | .busPartial wstrb addr _ => addr.extractLsb' 0 2 == 0#2 && wstrb != 0xF#4
  | .busUnmappedW addr _ | .busUnmappedR addr => addr.extractLsb' 0 2 == 0#2 && decide (0x60 ≤ addr.toNat)
  | .cmdIllegal v => decide (3 < v.toNat)
  | .wrRo r _ => r.readOnly
  | .rdWo r => r.writeOnly
  | .rd r => r.plainRead
  | .lineOther t ovf =>
    trimmed t && !t.contains lfByte && decide (t.length ≤ 65535) && (ovf || (t != onBytes && t != offBytes))
  | .nop | .loadCommit | .scale | .start | .wrStatus _ | .ldb _ _ | .wrMaxBright _ | .wrDynRange _ | .wrTblAddr _
  | .wrIrqEn _ | .rdLut | .rdSample | .lineOn | .lineOff | .scalerStep | .tickDue | .tickStep | .rxAccept _ | .dispatch
  | .txDepart | .pwmReload | .reset => true

end Sys2Proof
end

