-- ==== Sys2Proof/Decode.lean ====
section
/-! DEFINITION. Decoding (30_encoding.md R80 to R82, R88, R89, R91) and, after it, the encoder. -/

namespace Sys2Proof

/-- The offset of a register (R26). -/
def Reg.offset : Reg → BitVec 8
  | .id => 0x00 | .cmd => 0x04 | .status => 0x08 | .errCode => 0x0C | .errInfo => 0x10 | .loadData => 0x14
  | .loadPos => 0x18 | .declCount => 0x1C | .len => 0x20 | .maxBright => 0x24 | .dynRange => 0x28 | .timeIndex => 0x2C
  | .pwm0Duty => 0x30 | .pwm1Duty => 0x34 | .tickCount => 0x38 | .tblAddr => 0x3C | .lutData => 0x40
  | .sampleData => 0x44 | .lineCount => 0x48 | .lastCmd => 0x4C | .irqEn => 0x50 | .cap => 0x54 | .params => 0x58
  | .tickCycles => 0x5C

/-- The 24 registers in the order of their offsets (R26). -/
def Reg.all : List Reg :=
  [.id, .cmd, .status, .errCode, .errInfo, .loadData, .loadPos, .declCount, .len, .maxBright, .dynRange, .timeIndex,
   .pwm0Duty, .pwm1Duty, .tickCount, .tblAddr, .lutData, .sampleData, .lineCount, .lastCmd, .irqEn, .cap, .params,
   .tickCycles]

/-- The register at an offset, if the offset is mapped (R26, R69). -/
def Reg.ofOffset (a : BitVec 8) : Option Reg := Reg.all.find? fun r => r.offset == a

/-- A member of the whitespace set WS (R21). -/
def isWs (b : Byte) : Bool := wsBytes.contains b

/-- `strip` of R21: whitespace removed from both ends, the interior unchanged. -/
def strip (s : List Byte) : List Byte := ((s.dropWhile isWs).reverse.dropWhile isWs).reverse

/-- The CMD opcodes (R82): the whole word is compared. -/
def decodeCmd (wdata : Word) : Instr :=
  if wdata = 0 then .nop else if wdata = 1 then .loadCommit else if wdata = 2 then .scale
  else if wdata = 3 then .start else .cmdIllegal wdata

/-- A full-strobe write to a mapped register: the `case addr` of `decodeW` (R91). -/
def decodeRegWrite (r : Reg) (wdata : Word) : Instr :=
  match r with
  | .cmd => decodeCmd wdata
  | .status => .wrStatus wdata
  | .loadData => .ldb (wdata.extractLsb' 0 8) (wdata.extractLsb' 8 24)
  | .maxBright => .wrMaxBright wdata
  | .dynRange => .wrDynRange wdata
  | .tblAddr => .wrTblAddr wdata
  | .irqEn => .wrIrqEn wdata
  | ro => .wrRo ro wdata

/-- `decodeW` (R91): misaligned, then partial, then unmapped, then by register. The aligned offsets that are no register's
are exactly those from 0x60 on (`Laws.ofOffset_eq_none_iff`). -/
def decodeW (wstrb : BitVec 4) (addr : BitVec 8) (wdata : Word) : Instr :=
  if addr.extractLsb' 0 2 ≠ 0#2 then .busMisalignedW wstrb addr wdata
  else if wstrb ≠ 0xF#4 then .busPartial wstrb addr wdata
  else match Reg.ofOffset addr with
    | none => .busUnmappedW addr wdata
    | some r => decodeRegWrite r wdata

/-- A read of a mapped register (R91, with the windows' own rows RD_LUT and RD_SAMPLE). -/
def decodeRegRead (r : Reg) : Instr :=
  match r with
  | .cmd | .loadData => .rdWo r
  | .lutData => .rdLut
  | .sampleData => .rdSample
  | r => .rd r

/-- `decodeR` (R91). -/
def decodeR (addr : BitVec 8) : Instr :=
  if addr.extractLsb' 0 2 ≠ 0#2 then .busMisalignedR addr
  else match Reg.ofOffset addr with
    | none => .busUnmappedR addr
    | some r => decodeRegRead r

/-- `decode(s, ovf)` of R89: the command and the trimmed text of a complete line. -/
def decodeCommand (kept : List Byte) (ovf : Bool) : Command × List Byte :=
  let t := strip kept
  (if ovf then .unrecognized else if t = onBytes then .turnOn else if t = offBytes then .turnOff else .unrecognized, t)

/-- The row of a complete line: its kept bytes and its overlong flag (R89, R127 to R129). -/
def decodeLine (kept : List Byte) (ovf : Bool) : Instr :=
  match decodeCommand kept ovf with
  | (.turnOn, _) => .lineOn
  | (.turnOff, _) => .lineOff
  | (.unrecognized, t) => .lineOther t ovf

/-- The decoder: total, every word has exactly one operation (R91). BUSW is `wstrb ++ addr ++ wdata` (R80). -/
def decode : Wire → Instr
  | .busw w => decodeW (w.extractLsb' 40 4) (w.extractLsb' 32 8) (w.extractLsb' 0 32)
  | .busr a => decodeR a
  | .line kept ovf => decodeLine kept ovf

/-- Why a bare number of bits is no word of the block. -/
inductive DecodeError
  /-- More than 44 bits are set in a write word (R79: BUSW has 44 bits). -/
  | beyondBusw
  /-- The number of bits is no format's length (R79). -/
  | noSuchLength (nbits : Nat)
deriving DecidableEq, Repr

/-- `n` bytes of a number, most significant first: a LINE pattern of the table is one number whose first byte is its most
significant one (`on` is 0x6F6E; log 16). -/
def bytesOfNat : Nat → Nat → List Byte
  | 0, _ => []
  | n + 1, w => BitVec.ofNat 8 (w >>> (8 * n)) :: bytesOfNat n w

/-- The word that `nbits` bits of value `w` are: 8 bits a read, 41 to 48 bits a write of at most 44 bits, any other whole
number of bytes the content of a control line without overflow. -/
def wireOfBits (nbits w : Nat) : Except DecodeError Wire :=
  if nbits = 8 then .ok (.busr (BitVec.ofNat 8 w))
  else if 40 < nbits ∧ nbits ≤ 48 then
    if w < 2 ^ 44 then .ok (.busw (BitVec.ofNat 44 w)) else .error .beyondBusw
  else if nbits % 8 = 0 ∧ nbits ≤ 8 * 65535 then .ok (.line (bytesOfNat (nbits / 8) w) false)
  else .error (.noSuchLength nbits)

/-- The instruction the decoder reads from a table word (the host's fixed name). -/
def decodeTableWord (nbits w : Nat) : Option Instr := (wireOfBits nbits w).toOption.map decode

/-- The BUSW word of R80. -/
def buswWord (wstrb : BitVec 4) (addr : BitVec 8) (wdata : Word) : BitVec 44 := wstrb ++ addr ++ wdata

/-- A full write of `wdata` to register `r` (R94, `WR REG, v`). -/
def fullWrite (r : Reg) (wdata : Word) : Wire := .busw (buswWord 0xF r.offset wdata)

/-- The encoder, from the same tables. The STEP rows have no word: "not decoded from any word". -/
def encode : Instr → Option Wire
  | .busMisalignedW wstrb addr wdata => some (.busw (buswWord wstrb addr wdata))
  | .busMisalignedR addr => some (.busr addr)
  | .nop => some (fullWrite .cmd 0)
  | .loadCommit => some (fullWrite .cmd 1)
  | .scale => some (fullWrite .cmd 2)
  | .start => some (fullWrite .cmd 3)
  | .cmdIllegal v => some (fullWrite .cmd v)
  | .wrStatus v => some (fullWrite .status v)
  | .ldb b ignored => some (fullWrite .loadData (ignored ++ b))
  | .wrMaxBright v => some (fullWrite .maxBright v)
  | .wrDynRange v => some (fullWrite .dynRange v)
  | .wrTblAddr v => some (fullWrite .tblAddr v)
  | .wrIrqEn v => some (fullWrite .irqEn v)
  | .busUnmappedW addr wdata => some (.busw (buswWord 0xF addr wdata))
  | .busUnmappedR addr => some (.busr addr)
  | .wrRo r wdata => some (fullWrite r wdata)
  | .busPartial wstrb addr wdata => some (.busw (buswWord wstrb addr wdata))
  | .rdWo r => some (.busr r.offset)
  | .rdLut => some (.busr (Reg.offset .lutData))
  | .rdSample => some (.busr (Reg.offset .sampleData))
  | .rd r => some (.busr r.offset)
  | .lineOn => some (.line onBytes false)
  | .lineOff => some (.line offBytes false)
  | .lineOther t ovf => some (.line t ovf)
  | .scalerStep | .tickDue | .tickStep | .rxAccept _ | .dispatch | .txDepart | .pwmReload | .reset => none

end Sys2Proof
end

