-- ==== Sys2Proof/Machine/State.lean ====
section
/-! DEFINITION. The state of the block (10_state.md), the reasons a step can stop, and the state after reset
(70_reset_and_hazards.md R174). -/

namespace Sys2Proof.Machine

/-- The lifecycle state STATUS.STATE (R24). Values 5 and 6 are never held. -/
inductive Lifecycle
  | load | loaded | scaling | scaled | running | fatal
deriving DecidableEq, Repr, Inhabited

/-- A memory of `w`-bit entries as (index, entry) pairs with rising indices and no entry equal to the default 0
(log 3, log 4). For the line buffer, whose entries are bytes, it is a list of `Host.Cell`. -/
abbrev Mem (w : Nat) := List (Nat × BitVec w)

/-- What an unlisted index reads as. DESIGN CHOICE (log 3): R174 "A model may fill the unspecified memories with any
value; no rule can read them before writing them". -/
def Mem.default (w : Nat) : BitVec w := 0

/-- Canonical form: every entry differs from the default and the indices rise strictly. -/
def Mem.wf {w : Nat} : Mem w → Bool
  | [] => true
  | (a, x) :: m => x != Mem.default w && (m.head?.all fun c => decide (a < c.1)) && Mem.wf m

/-- Why the model stops. No reachable state has one of these (R78, `Obligations.NoStepFaultsUnderInv`); the spec's own
fatal errors are NEXT states (R156). -/
inductive Fault
  /-- Raised by LDB, RD_SAMPLE and SCALER_STEP for a sample index that is not below DATA_CAP (R51, R78). Safe: the memory
  has no such entry. -/
  | sampleIndex (i : Nat)
  /-- Raised by START, TICK_STEP and RD_LUT on a LUT index that is not below DATA_CAP (R52, R78). Safe. -/
  | lutIndex (i : Nat)
  /-- Raised by DISPATCH when `line_len` is above LINE_MAX (R55 bounds it). Safe: the buffer has no such byte. -/
  | lineIndex (i : Nat)
  /-- Raised by SCALER_STEP and TICK_STEP when LEN is 0: no sample 0, no remainder mod 0 (R105 "n >= 1", R119). Safe. -/
  | emptySeries
deriving DecidableEq, Repr

/-- Why the model has no meaning for an instruction. -/
inductive Refusal
  /-- Raised by `exec` for an instruction that has no meaning yet; no instruction is left in this state. Safe. -/
  | notModelled (mnemonic : String)
deriving DecidableEq, Repr

/-- The whole state: registers, memories, hidden state (10_state.md), the bus response ports, the input levels, the
parameters, and the model's own schedule of turns. -/
structure State where
  /-- The parameters (R6 to R15): constants of the machine, read by CAP, PARAMS and TICK_CYCLES (R48 to R50). -/
  cfg : Params
  /-- STATUS.STATE (R24). -/
  life : Lifecycle
  /-- STATUS.TRUNC (R30, R98). -/
  trunc : Bool
  /-- STATUS.RELAY, the relay output (R30, R132). -/
  relay : Bool
  /-- STATUS.CMD_ERR, sticky (R30, R148). -/
  cmdErr : Bool
  /-- STATUS.RX_OVERLONG, sticky (R30). -/
  rxOverlong : Bool
  /-- ERR_CODE[3:0] (R31). -/
  errCode : BitVec 4
  /-- ERR_INFO (R32). -/
  errInfo : Word
  /-- `pos` (R54): bytes accepted, saturating at 2^36 - 1. -/
  pos : BitVec 36
  /-- `count_sr` (R54). -/
  countSr : Word
  /-- `word_sr` (R54). -/
  wordSr : Word
  /-- `trailing` (R54). -/
  trailing : Bool
  /-- DECL_COUNT (R35). -/
  declCount : Word
  /-- LEN (R36). -/
  len : Word
  /-- MAX_BRIGHT (R37), a BIN32 pattern. -/
  maxBright : Word
  /-- DYN_RANGE (R38), a BIN32 pattern. -/
  dynRange : Word
  /-- TIME_INDEX (R39). -/
  timeIndex : Word
  /-- PWM0_DUTY[15:0] (R40). -/
  pwm0Duty : Duty
  /-- PWM1_DUTY[15:0] (R40). -/
  pwm1Duty : Duty
  /-- TICK_COUNT (R41). -/
  tickCount : Word
  /-- TBL_ADDR (R42). -/
  tblAddr : Word
  /-- LINE_COUNT (R45). -/
  lineCount : Word
  /-- LAST_CMD[1:0] (R46). -/
  lastCmd : BitVec 2
  /-- IRQ_EN.FATAL_IE (R47). -/
  fatalIe : Bool
  /-- The sample memory (R51). -/
  sample : Mem 32
  /-- The LUT memory (R52). -/
  lut : Mem 16
  /-- `lut_valid` (R53). -/
  lutValid : Bool
  /-- `line_buf` (R55). -/
  lineBuf : List Host.Cell
  /-- `line_len` (R55). -/
  lineLen : BitVec 16
  /-- `line_ovf` (R55). -/
  lineOvf : Bool
  /-- `line_pend` (R55). -/
  linePend : Bool
  /-- `txq` (R56), oldest byte first. -/
  txq : List Byte
  /-- `tb` (R57). -/
  tb : Word
  /-- `tick_pend` (R57). -/
  tickPend : Bool
  /-- `cp` (R58). -/
  cp : Word
  /-- `presc` (R59). -/
  presc : Word
  /-- `pwm_cnt` (R59). -/
  pwmCnt : BitVec 16
  /-- `active0` (R59). -/
  active0 : Duty
  /-- `active1` (R59). -/
  active1 : Duty
  /-- `bus_ready` (R61): the last access completed in this clock cycle. -/
  busReady : Bool
  /-- `bus_err` of the last access (R135). -/
  busErr : Bool
  /-- `bus_rdata` of the last access (R135). -/
  busRdata : Word
  /-- The input levels during the current step (R61). -/
  inp : Inputs
  /-- The model's own: turns the environment has already fixed, the next one first (log 1). -/
  schedule : List Turn
  /-- The model's own: how many turns were drawn from `Config.environment` (log 1). -/
  envCount : Nat
deriving DecidableEq, Repr

/-- The reset values of R174 for a block with parameters `p` and an environment that offers nothing yet. -/
def State.resetWith (p : Params) : State :=
  { cfg := p, life := .load, trunc := false, relay := false, cmdErr := false, rxOverlong := false, errCode := 0,
    errInfo := 0, pos := 0, countSr := 0, wordSr := 0, trailing := false, declCount := 0, len := 0,
    maxBright := 0x3F800000, dynRange := 0, timeIndex := 0, pwm0Duty := 0, pwm1Duty := 0, tickCount := 0, tblAddr := 0,
    lineCount := 0, lastCmd := 0, fatalIe := false, sample := [], lut := [], lutValid := false, lineBuf := [],
    lineLen := 0, lineOvf := false, linePend := false, txq := [], tb := 0, tickPend := false, cp := 0, presc := 0,
    pwmCnt := 0, active0 := 0, active1 := 0, busReady := false, busErr := false, busRdata := 0, inp := {},
    schedule := [], envCount := 0 }

/-- The machine right after reset (R174), with the parameters of log 2. -/
def State.reset : State := State.resetWith Config.testParams

end Sys2Proof.Machine
end

