-- ==== Sys2Proof/Machine/F64.lean ====
section
/-! DEFINITION. The scaler's arithmetic (00_scope.md R18): finite IEEE-754 binary64 values, each operation correctly rounded
to nearest, ties to even, with subnormals. PRESUMED (log 8): the formats themselves, "from general knowledge" in R18.

Every finite binary64 value is a whole multiple of 2^-1074, so a value is held as that multiple. An operation computes its
exact result and rounds it once. -/

namespace Sys2Proof.Machine

/-- A finite binary64 value: `units * 2^-1074`. The two zeros are one value: no rule tells them apart (R106, R108, log 8). -/
structure F64 where
  units : Int
deriving DecidableEq, Repr, Inhabited

/-- The number of units in 1.0. -/
def F64.one : Nat := 2 ^ 1074

/-- The number `n` as a value, for the constants 1.0 and 65535.0 of R110 to R112 (exactly representable). -/
def F64.ofNat (n : Nat) : F64 := ⟨n * F64.one⟩

/-- The exponent of the last place of the 53-bit significand of a value whose whole part in units is `q`; 0 for every value
below 2^53 units, the subnormals among them. -/
def F64.ulpExp (q : Nat) : Nat := Nat.log2 q - 52

/-- `n / d` units (`d > 0`) rounded to 53 significant bits, to nearest, ties to even. -/
def F64.roundNat (n d : Nat) : Nat :=
  let u := 2 ^ F64.ulpExp (n / d)
  let m := n / (d * u)
  let r := n % (d * u)
  (if d * u < 2 * r ∨ (2 * r = d * u ∧ m % 2 = 1) then m + 1 else m) * u

/-- `n / d` units rounded: the rounding is symmetric in the sign. -/
def F64.round (n : Int) (d : Nat) : F64 :=
  ⟨if n < 0 then -(F64.roundNat n.natAbs d : Int) else F64.roundNat n.natAbs d⟩

/-- `x +. y` (R18). -/
def F64.add (x y : F64) : F64 := F64.round (x.units + y.units) 1

/-- `x -. y` (R18). -/
def F64.sub (x y : F64) : F64 := F64.round (x.units - y.units) 1

/-- `x *. y` (R18): the product of two multiples of 2^-1074 is one of 2^-2148. -/
def F64.mul (x y : F64) : F64 := F64.round (x.units * y.units) F64.one

/-- `x /. y` (R18) for `y` other than zero; R109 keeps zero out of R111's division. -/
def F64.div (x y : F64) : F64 := F64.round (x.units * F64.one * y.units.sign) y.units.natAbs

/-- `x <. y` (R18), on finite values. -/
def F64.lt (x y : F64) : Bool := decide (x.units < y.units)

/-- `x ==. y` (R18), on finite values. -/
def F64.eq (x y : F64) : Bool := decide (x.units = y.units)

/-- `trunc(v)` (R18): the fractional part discarded, toward zero. -/
def F64.trunc (x : F64) : Int := x.units.tdiv F64.one

/-- `isfinite32` (R18, R84). -/
def isFinite32 (w : Word) : Bool := w.extractLsb' 23 8 != 0xFF#8

/-- `f64(f32(w))` (R18) of a finite BIN32 pattern (R84): exact, since binary32's last place 2^-149 is 2^925 units. -/
def F64.ofBin32 (w : Word) : F64 :=
  let e := (w.extractLsb' 23 8).toNat
  let f := (w.extractLsb' 0 23).toNat
  let mag : Nat := if e = 0 then f * 2 ^ 925 else (2 ^ 23 + f) * 2 ^ (e + 924)
  ⟨if w.getLsbD 31 then -(mag : Int) else mag⟩

end Sys2Proof.Machine
end

