-- ==== Sys2Proof/Machine/Ops.lean ====
section
/-! DEFINITION. The named operations every meaning is built from: the memories, the bus response, the flag CMD_ERR, fatal
entry (the block's only exception) and reset (its only way back). -/

namespace Sys2Proof.Machine

/-- The entry at an index. -/
def Mem.read {w : Nat} : Mem w → Nat → BitVec w
  | [], _ => Mem.default w
  | (a, x) :: m, k => if k = a then x else Mem.read m k

/-- Store an entry, keeping the canonical form: storing the default removes the entry. -/
def Mem.write {w : Nat} : Mem w → Nat → BitVec w → Mem w
  | [], k, v => if v = Mem.default w then [] else [(k, v)]
  | (a, x) :: m, k, v =>
    if k < a then (if v = Mem.default w then (a, x) :: m else (k, v) :: (a, x) :: m)
    else if k = a then (if v = Mem.default w then m else (k, v) :: m)
    else (a, x) :: Mem.write m k v

/-- Store the entries of a list at `i`, `i + 1`, ... -/
def Mem.writeList {w : Nat} (m : Mem w) : Nat → List (BitVec w) → Mem w
  | _, [] => m
  | i, v :: vs => Mem.writeList (Mem.write m i v) (i + 1) vs

/-- `MemRead(SAMPLE, i)` (R17, R78): none where the memory has no entry `i`. -/
def State.sampleAt (s : State) (i : Nat) : Option Word := if i < s.cfg.dataCap then some (s.sample.read i) else none

/-- `MemRead(LUT, i)` (R17, R78): none where the memory has no entry `i`. -/
def State.lutAt (s : State) (i : Nat) : Option Duty := if i < s.cfg.dataCap then some (s.lut.read i) else none

/-- The fatal causes (R150). -/
inductive Cause
  | fmtShortHeader | fmtEmpty | fmtShortPayload | fmtTrailing | cfgRange | nonfiniteSample | degenerate | hwWrite
deriving DecidableEq, Repr

/-- ERR_CODE of a cause (R150). -/
def Cause.code : Cause → BitVec 4
  | .fmtShortHeader => 1
  | .fmtEmpty => 2
  | .fmtShortPayload => 3
  | .fmtTrailing => 4
  | .cfgRange => 5
  | .nonfiniteSample => 6
  | .degenerate => 7
  | .hwWrite => 8

/-- FATAL ENTRY (R156): STATE, ERR_CODE and ERR_INFO are written; "Nothing is saved", no output changes. -/
def enterFatal (c : Cause) (info : Word) (s : State) : State :=
  { s with life := .fatal, errCode := c.code, errInfo := info }

/-- The check of R154 after an output write: `drv_fault = 1` raises HW_WRITE, the writes stay. -/
def checkDriver (info : Word) (s : State) : State := if s.inp.drvFault then enterFatal .hwWrite info s else s

/-- RESET (R173, R174): every piece of the block's state takes its reset value. The parameters are constants; the
environment (its input levels and its turns) is no state of the block (log 13). -/
def applyReset (s : State) : State :=
  { State.resetWith s.cfg with inp := s.inp, schedule := s.schedule, envCount := s.envCount }

/-- `flag CMD_ERR` (R17): sets STATUS.CMD_ERR and changes nothing else. -/
def flagCmdErr (s : State) : State := { s with cmdErr := true }

/-- The end of a bus access that is performed (R135): `bus_err = 0`, the read value or 0. -/
def respond (rdata : Word) (s : State) : State := { s with busReady := true, busErr := false, busRdata := rdata }

/-- The end of a bus access that is refused (R135 to R138): `bus_err = 1`, data 0, nothing else changes. -/
def refuseAccess (s : State) : State := { s with busReady := true, busErr := true, busRdata := 0 }

/-- What an instruction of this block answers. -/
abbrev Result := Host.Outcome State Fault Refusal

/-- The end of a bus write that is performed (R135): no error, data 0, whatever state the operation leaves. -/
def completeWrite : Result → Result
  | .next s => .next (respond 0 s)
  | .fault f => .fault f
  | .refused r => .refused r

/-- A state-gated operation (R149): its effect where it is legal, otherwise CMD_ERR and nothing else. -/
def gated (legal : Bool) (effect : State → Result) (s : State) : Result :=
  if legal then effect s else .next (flagCmdErr s)

/-- The write of a duty value to both channels in one step (R118, R119): PWM0_DUTY, PWM1_DUTY and TICK_COUNT. -/
def writeDuty (d : Duty) (s : State) : State := { s with pwm0Duty := d, pwm1Duty := d, tickCount := s.tickCount + 1 }

/-- `free(txq)` (R56). -/
def State.txFree (s : State) : Nat := s.cfg.txDepth - s.txq.length

/-- LOAD_POS: `min(pos, 2^32 - 1)` (R34). -/
def State.loadPos (s : State) : Word := BitVec.ofNat 32 (min s.pos.toNat (2 ^ 32 - 1))

end Sys2Proof.Machine
end

