-- ==== Sys2Proof/Machine/Flags.lean ====
section
/-! DEFINITION. The flags of STATUS (10_state.md R30, 44_host_registers.md R139) and the readiness flags of the ports
(R125, R131). -/

namespace Sys2Proof.Machine

/-- The value of STATUS.STATE (R24). -/
def Lifecycle.code : Lifecycle → BitVec 3
  | .load => 0
  | .loaded => 1
  | .scaling => 2
  | .scaled => 3
  | .running => 4
  | .fatal => 7

/-- STATUS.BUSY: 1 exactly when STATE = SCALING (R30). -/
def State.busy (s : State) : Bool := s.life == .scaling

/-- STATUS.TX_EMPTY: the transmit queue holds no byte (R56). -/
def State.txEmpty (s : State) : Bool := s.txq.isEmpty

/-- STATUS as it reads (R139): eleven fields, TX_EMPTY the most significant, bits 31:11 zero. -/
def State.statusWord (s : State) : Word :=
  (BitVec.ofBool s.txEmpty ++ BitVec.ofBool s.rxOverlong ++ BitVec.ofBool s.cmdErr ++ BitVec.ofBool s.lutValid ++
    BitVec.ofBool s.linePend ++ BitVec.ofBool s.relay ++ BitVec.ofBool s.trunc ++ BitVec.ofBool s.busy ++
    s.life.code).setWidth 32

/-- `rx_ready` of R125: RUNNING and no complete line waiting. -/
def State.rxReady (s : State) : Bool := s.life == .running && !s.linePend

/-- `tx_valid` of R131: the transmit queue holds a byte. -/
def State.txValid (s : State) : Bool := !s.txq.isEmpty

/-- The guard of the dispatch step for a line with trimmed text `t` (R126): the whole echo, 16 + len(t) bytes, fits. -/
def State.canDispatch (t : List Byte) (s : State) : Bool :=
  s.life == .running && s.linePend && decide (16 + t.length ≤ s.txFree)

/-- The states in which the configuration may be written (R102, R103). -/
def State.configOpen (s : State) : Bool := s.life == .load || s.life == .loaded

end Sys2Proof.Machine
end

