-- ==== Sys2Proof/Machine/Operands.lean ====
section
/-! DEFINITION. The operand forms: what a register reads as (10_state.md R28 to R50), the two windows (R141, R142), and the
line the command task decodes (R126). -/

namespace Sys2Proof.Machine

/-- LUT_DATA (R141): gated by `lut_valid` and LEN, otherwise 0. None where the LUT has no such entry (log 5). -/
def State.lutWindow (s : State) : Option Word :=
  if s.lutValid ∧ s.tblAddr.toNat < s.len.toNat then (s.lutAt s.tblAddr.toNat).map (·.setWidth 32) else some 0

/-- SAMPLE_DATA (R142): a sample below LEN all of whose four bytes were accepted, otherwise 0. -/
def State.sampleWindow (s : State) : Option Word :=
  if s.tblAddr.toNat < s.len.toNat ∧ 4 + 4 * (s.tblAddr.toNat + 1) ≤ s.pos.toNat then s.sampleAt s.tblAddr.toNat
  else some 0

/-- PARAMS (R49): LINE_MAX in bits 15:0, SHIFT_FORM in bit 16. -/
def paramsWord (p : Params) : Word :=
  (BitVec.ofBool p.shiftForm.bit ++ BitVec.ofNat 16 p.lineMax).setWidth 32

/-- `read_value` (R139) of a register that is not a window; the write-only registers read 0 (R140). -/
def State.readValue (s : State) : Reg → Word
  | .id => 0x494E4631
  | .cmd | .loadData => 0
  | .status => s.statusWord
  | .errCode => s.errCode.setWidth 32
  | .errInfo => s.errInfo
  | .loadPos => s.loadPos
  | .declCount => s.declCount
  | .len => s.len
  | .maxBright => s.maxBright
  | .dynRange => s.dynRange
  | .timeIndex => s.timeIndex
  | .pwm0Duty => s.pwm0Duty.setWidth 32
  | .pwm1Duty => s.pwm1Duty.setWidth 32
  | .tickCount => s.tickCount
  | .tblAddr => s.tblAddr
  | .lutData => s.lutWindow.getD 0
  | .sampleData => s.sampleWindow.getD 0
  | .lineCount => s.lineCount
  | .lastCmd => s.lastCmd.setWidth 32
  | .irqEn => (BitVec.ofBool s.fatalIe).setWidth 32
  | .cap => BitVec.ofNat 32 s.cfg.dataCap
  | .params => paramsWord s.cfg
  | .tickCycles => BitVec.ofNat 32 s.cfg.tickCycles

/-- The first `n` bytes of the line buffer. -/
def lineBytes (buf : List Host.Cell) (n : Nat) : List Byte := (List.range n).map (Mem.read (w := 8) buf)

/-- The kept bytes `s = line_buf[0 .. line_len-1]` (R126); none where the buffer has no such byte (R55, log 5). -/
def State.line (s : State) : Option (List Byte) :=
  if s.lineLen.toNat ≤ s.cfg.lineMax then some (lineBytes s.lineBuf s.lineLen.toNat) else none

end Sys2Proof.Machine
end

