-- ==== Sys2Proof/Machine/Outputs.lean ====
section
/-! DEFINITION. The output ports (10_state.md R61) as functions of the state. `bus_ready`, `bus_err` and `bus_rdata` are
fields of the state (R135). -/

namespace Sys2Proof.Machine

/-- `irq` (R164): FATAL and IRQ_EN.FATAL_IE. -/
def State.irq (s : State) : Bool := s.life == .fatal && s.fatalIe

/-- `relay_out` (R61): equal to STATUS.RELAY. -/
def State.relayOut (s : State) : Bool := s.relay

/-- `pwm_out[0]` (R121). -/
def State.pwmOut0 (s : State) : Bool := decide (s.pwmCnt.toNat < s.active0.toNat)

/-- `pwm_out[1]` (R121). -/
def State.pwmOut1 (s : State) : Bool := decide (s.pwmCnt.toNat < s.active1.toNat)

/-- The port `rx_ready`: closed while `rst = 1` (R173). -/
def State.rxReadyOut (s : State) : Bool := !s.inp.rst && s.rxReady

/-- The port `tx_valid`: 0 while `rst = 1` (R173). -/
def State.txValidOut (s : State) : Bool := !s.inp.rst && s.txValid

/-- The port `bus_ready`: 0 while `rst = 1` (R173). -/
def State.busReadyOut (s : State) : Bool := !s.inp.rst && s.busReady

/-- The port `tx_data` (R131): the head of `txq`. DESIGN CHOICE (log 12): 0 when the queue is empty, as R174 has it. -/
def State.txData (s : State) : Byte := s.txq.head?.getD 0

end Sys2Proof.Machine
end

