-- ==== Sys2Proof/Machine/CommandTask.lean ====
section
/-! DEFINITION. The command task (43_command_dispatcher.md): RX_ACCEPT, DISPATCH with its three cases LINE_ON, LINE_OFF and
LINE_OTHER, and TX_DEPART. -/

namespace Sys2Proof.Machine

/-- RX_ACCEPT (R125): LF completes the line, other bytes are kept while the buffer has room, then dropped. -/
def execRxAccept (b : Byte) (s : State) : Result :=
  .next (
    if s.rxReady then
      if b = lfByte then { s with linePend := true }
      else if s.lineLen.toNat < s.cfg.lineMax then
        { s with lineBuf := Mem.write (w := 8) s.lineBuf s.lineLen.toNat b, lineLen := s.lineLen + 1 }
      else { s with lineOvf := true }
    else s)

/-- "received data: " (R20). -/
def echoPrefix : List Byte :=
  [0x72, 0x65, 0x63, 0x65, 0x69, 0x76, 0x65, 0x64, 0x20, 0x64, 0x61, 0x74, 0x61, 0x3A, 0x20]

/-- Format ECHO (R90): the prefix, the trimmed text, CR. -/
def echo (t : List Byte) : List Byte := echoPrefix ++ t ++ [0x0D]

/-- LAST_CMD of a command (R46, R126). -/
def Command.code : Command → BitVec 2
  | .turnOn => 1
  | .turnOff => 2
  | .unrecognized => 3

/-- The relay write of a command (R127 to R129), with the driver check that follows it; Unrecognized writes nothing and
does not sample `drv_fault`. -/
def applyCommand (c : Command) (s : State) : State :=
  match c with
  | .turnOn => checkDriver 1 { s with relay := true }
  | .turnOff => checkDriver 1 { s with relay := false }
  | .unrecognized => s

/-- The part of the dispatch step common to every line (R126): echo, LAST_CMD, LINE_COUNT, RX_OVERLONG, the buffer freed. -/
def finishLine (c : Command) (t : List Byte) (ovf : Bool) (s : State) : State :=
  { s with txq := s.txq ++ echo t, lastCmd := Command.code c, lineCount := s.lineCount + 1,
           rxOverlong := s.rxOverlong || ovf, lineLen := 0, lineOvf := false, linePend := false, cp := 0 }

/-- The dispatch step on a decoded line (R126): nothing unless its guard holds. The driver check comes last, so a failure
leaves every write of the step in place (R156). -/
def dispatchAs (c : Command) (t : List Byte) (ovf : Bool) (s : State) : State :=
  if s.canDispatch t then applyCommand c (finishLine c t ovf s) else s

/-- LINE_ON (R127). -/
def execLineOn (s : State) : Result := .next (dispatchAs .turnOn onBytes false s)

/-- LINE_OFF (R128). -/
def execLineOff (s : State) : Result := .next (dispatchAs .turnOff offBytes false s)

/-- LINE_OTHER (R129). -/
def execLineOther (text : List Byte) (ovf : Bool) (s : State) : Result := .next (dispatchAs .unrecognized text ovf s)

/-- DISPATCH (R126): the waiting line is decoded (R89) and the case of its command taken. -/
def execDispatch (s : State) : Result :=
  if s.life = .running ∧ s.linePend = true then
    match s.line with
    | none => .fault (.lineIndex s.lineLen.toNat)
    | some kept =>
      let ct := decodeCommand kept s.lineOvf
      .next (dispatchAs ct.1 ct.2 s.lineOvf s)
  else .next s

/-- TX_DEPART (R131): the head of the queue leaves, in every lifecycle state. -/
def execTxDepart (s : State) : Result := .next (if s.txValid && s.inp.txReady then { s with txq := s.txq.tail } else s)

/-- RESET (R173). -/
def execReset (s : State) : Result := .next (applyReset s)

end Sys2Proof.Machine
end

