-- ==== Sys2Proof/Machine/HostRegs.lean ====
section
/-! DEFINITION. Host register access (44_host_registers.md): refusals, reads, plain register writes, NOP and CMD_ILLEGAL;
with them the scaler's configuration writes (41_scaler.md R102, R103). -/

namespace Sys2Proof.Machine

/-- BUS_MISALIGNED, write (R136). -/
def execBusMisalignedW (_wstrb : BitVec 4) (_addr : BitVec 8) (_wdata : Word) (s : State) : Result :=
  .next (refuseAccess s)

/-- BUS_MISALIGNED, read (R136). -/
def execBusMisalignedR (_addr : BitVec 8) (s : State) : Result := .next (refuseAccess s)

/-- BUS_PARTIAL (R137). -/
def execBusPartial (_wstrb : BitVec 4) (_addr : BitVec 8) (_wdata : Word) (s : State) : Result := .next (refuseAccess s)

/-- BUS_UNMAPPED, write (R138). -/
def execBusUnmappedW (_addr : BitVec 8) (_wdata : Word) (s : State) : Result := .next (refuseAccess s)

/-- BUS_UNMAPPED, read (R138). -/
def execBusUnmappedR (_addr : BitVec 8) (s : State) : Result := .next (refuseAccess s)

/-- RD REG (R139). -/
def execRd (r : Reg) (s : State) : Result := .next (respond (s.readValue r) s)

/-- RD_WO (R140): a write-only register reads 0. -/
def execRdWo (_r : Reg) (s : State) : Result := .next (respond 0 s)

/-- RD_LUT (R141). -/
def execRdLut (s : State) : Result :=
  match s.lutWindow with
  | some v => .next (respond v s)
  | none => .fault (.lutIndex s.tblAddr.toNat)

/-- RD_SAMPLE (R142). -/
def execRdSample (s : State) : Result :=
  match s.sampleWindow with
  | some v => .next (respond v s)
  | none => .fault (.sampleIndex s.tblAddr.toNat)

/-- WR_RO (R143): no effect and no error. -/
def execWrRo (_r : Reg) (_wdata : Word) (s : State) : Result := completeWrite (.next s)

/-- WR STATUS, v (R144): `v[8]` clears CMD_ERR, `v[9]` clears RX_OVERLONG. -/
def execWrStatus (v : Word) (s : State) : Result :=
  completeWrite (.next
    { s with cmdErr := s.cmdErr && !v.getLsbD 8, rxOverlong := s.rxOverlong && !v.getLsbD 9 })

/-- WR TBL_ADDR, v (R145). -/
def execWrTblAddr (v : Word) (s : State) : Result := completeWrite (.next { s with tblAddr := v })

/-- WR IRQ_EN, v (R146): only `v[0]` is stored. -/
def execWrIrqEn (v : Word) (s : State) : Result := completeWrite (.next { s with fatalIe := v.getLsbD 0 })

/-- NOP (R147): legal in every state, no effect. -/
def execNop (s : State) : Result := completeWrite (.next s)

/-- CMD_ILLEGAL (R148). -/
def execCmdIllegal (_wdata : Word) (s : State) : Result := completeWrite (.next (flagCmdErr s))

/-- WR MAX_BRIGHT, v (R102): any pattern, in LOAD and LOADED. -/
def execWrMaxBright (v : Word) (s : State) : Result :=
  completeWrite (gated s.configOpen (fun s => .next { s with maxBright := v }) s)

/-- WR DYN_RANGE, v (R103). -/
def execWrDynRange (v : Word) (s : State) : Result :=
  completeWrite (gated s.configOpen (fun s => .next { s with dynRange := v }) s)

end Sys2Proof.Machine
end

