-- ==== Sys2Proof/Machine/Loader.lean ====
section
/-! DEFINITION. The waveform loader (40_loader.md): LDB and LOAD_COMMIT. -/

namespace Sys2Proof.Machine

/-- `sr[23:0] ++ b` (R86, R96): the big-endian assembly of a 4-byte field. -/
def shiftIn (sr : Word) (b : Byte) : Word := sr.extractLsb' 0 24 ++ b

/-- `pos <- min(p + 1, 2^36 - 1)` (R96): 36 bits, saturating at all ones (`Laws`: `advancePos_toNat`). -/
def advancePos (s : State) : State := { s with pos := if s.pos = BitVec.allOnes 36 then s.pos else s.pos + 1 }

/-- A header byte (R96, `p < 4`): the fourth completes DECL_COUNT, LEN and TRUNC. -/
def headerByte (b : Byte) (s : State) : State :=
  let c := shiftIn s.countSr b
  if s.pos.toNat = 3 then
    { s with countSr := c, declCount := c, len := BitVec.ofNat 32 (min c.toNat s.cfg.dataCap),
             trunc := decide (s.cfg.dataCap < c.toNat) }
  else { s with countSr := c }

/-- A payload byte (R96): part of a kept sample, beyond the declared payload, or discarded by capacity truncation. -/
def payloadByte (b : Byte) (s : State) : Result :=
  let k := (s.pos.toNat - 4) / 4
  let j := (s.pos.toNat - 4) % 4
  if k < s.len.toNat then
    let w := shiftIn s.wordSr b
    if j = 3 then
      if k < s.cfg.dataCap then .next (advancePos { s with wordSr := w, sample := s.sample.write k w })
      else .fault (.sampleIndex k)
    else .next (advancePos { s with wordSr := w })
  else if s.declCount.toNat ≤ k then .next (advancePos { s with trailing := true })
  else .next (advancePos s)

/-- One byte of the PackedWaveform in LOAD (R96). -/
def acceptByte (b : Byte) (s : State) : Result :=
  if s.pos.toNat < 4 then .next (advancePos (headerByte b s)) else payloadByte b s

/-- LDB b (R96). -/
def execLdb (b : Byte) (_ignored : BitVec 24) (s : State) : Result :=
  completeWrite (gated (s.life == .load) (acceptByte b) s)

/-- The first commit check that holds (R97), in the order of R97. -/
def commitError (s : State) : Option Cause :=
  if s.pos.toNat < 4 then some .fmtShortHeader
  else if s.declCount = 0 then some .fmtEmpty
  else if s.pos.toNat < 4 + 4 * s.len.toNat then some .fmtShortPayload
  else if s.trailing then some .fmtTrailing
  else none

/-- LOAD_COMMIT in LOAD (R97): LOADED, or fatal entry with LOAD_POS. -/
def commit (s : State) : State :=
  match commitError s with
  | some c => enterFatal c s.loadPos s
  | none => { s with life := .loaded }

/-- LOAD_COMMIT (R97). -/
def execLoadCommit (s : State) : Result := completeWrite (gated (s.life == .load) (fun s => .next (commit s)) s)

end Sys2Proof.Machine
end

