-- ==== Sys2Proof/Machine/Player.lean ====
section
/-! DEFINITION. The LUT player and the PWM reload (42_playback.md): START, TICK_DUE, TICK_STEP, PWM_RELOAD. -/

namespace Sys2Proof.Machine

/-- START in SCALED (R118): RUNNING, LUT entry 0 to both channels, both timers cleared, then the driver check. -/
def startPlayback (s : State) : Result :=
  match s.lutAt 0 with
  | none => .fault (.lutIndex 0)
  | some d =>
    .next (checkDriver 0 (writeDuty d { s with life := .running, timeIndex := 0, tb := 0, tickPend := false, cp := 0 }))

/-- START (R118). -/
def execStart (s : State) : Result := completeWrite (gated (s.life == .scaled) startPlayback s)

/-- TICK_DUE (R120): a tick falls due; enabled at any moment in RUNNING. -/
def execTickDue (s : State) : Result := .next (if s.life = .running then { s with tickPend := true } else s)

/-- TICK_STEP (R119): advance modulo LEN, read the LUT, write both channels, then the driver check. -/
def execTickStep (s : State) : Result :=
  if s.life = .running ∧ s.tickPend = true then
    if s.len = 0 then .fault .emptySeries
    else
      let i := (s.timeIndex.toNat + 1) % s.len.toNat
      match s.lutAt i with
      | none => .fault (.lutIndex i)
      | some d =>
        .next (checkDriver 0 (writeDuty d { s with tickPend := false, timeIndex := BitVec.ofNat 32 i }))
  else .next s

/-- PWM_RELOAD (R121): both channels load their duty. -/
def execPwmReload (s : State) : Result := .next { s with active0 := s.pwm0Duty, active1 := s.pwm1Duty }

end Sys2Proof.Machine
end

