-- ==== Sys2Proof/Machine/Scaler.lean ====
section
/-! DEFINITION. The intensity scaler (41_scaler.md): SCALE and the scaler step, R104 to R113. -/

namespace Sys2Proof.Machine

/-- SCALE (R104). -/
def execScale (s : State) : Result :=
  completeWrite (gated (s.life == .loaded) (fun s => .next { s with life := .scaling }) s)

/-- `cfg_ok` (R106): +0.0 to 1.0, or -0.0, as an unsigned comparison of the BIN32 pattern. -/
def cfgOk (w : Word) : Bool := decide (w.toNat ≤ 0x3F800000) || w == 0x80000000#32

/-- `bad` of `check_config` (R106): bit 0 marks MAX_BRIGHT, bit 1 DYN_RANGE. -/
def cfgBad (m d : Word) : Word := (if cfgOk m then 0 else 1) ||| (if cfgOk d then 0 else 2)

/-- The samples `0 .. LEN-1` (R105); none where the memory has no such entries. -/
def State.samples (s : State) : Option (List Word) :=
  if s.len.toNat ≤ s.cfg.dataCap then some ((List.range s.len.toNat).map s.sample.read) else none

/-- The index of the first sample that is not finite (R107). -/
def firstNonfinite (ws : List Word) : Option Nat := ws.findIdx? fun w => !isFinite32 w

/-- `fold` (R108) of `x_0` and the samples after it: minimum and maximum, strict comparisons, left to right. -/
def extremes (x0 : F64) (xs : List F64) : F64 × F64 :=
  xs.foldl (fun mm x => (if x.lt mm.1 then x else mm.1, if mm.2.lt x then x else mm.2)) (x0, x0)

/-- `max_desired` (R110). -/
def maxDesired (mb : Word) : F64 := (F64.ofBin32 mb).mul (F64.ofNat 65535)

/-- `min_desired` (R110). -/
def minDesired (mb dr : Word) : F64 := (maxDesired mb).mul (F64.ofBin32 dr)

/-- `scale` (R111) for the extremes of the series. -/
def scaleFactor (mb dr : Word) (minVal maxVal : F64) : F64 :=
  ((maxDesired mb).sub (minDesired mb dr)).div (maxVal.sub minVal)

/-- `shift` (R112), by SHIFT_FORM. -/
def shiftTerm (form : ShiftForm) (mb dr : Word) (minVal scale : F64) : F64 :=
  match form with
  | .floor => (minDesired mb dr).sub (minVal.mul scale)
  | .reference => ((maxDesired mb).mul ((F64.ofNat 1).sub (F64.ofBin32 dr))).sub (minVal.mul scale)

/-- `v_i` (R113). -/
def scaledValue (shift scale x : F64) : F64 := shift.add (scale.mul x)

/-- `clamp(trunc(v), 0, 65535)` (R113) as a 16-bit duty value. -/
def clampDuty (v : F64) : Duty := BitVec.ofNat 16 (min (max v.trunc 0) 65535).toNat

/-- The LUT of a series with first sample `w` and further samples `ws` (R108 to R113); none when it is degenerate (R109).
It reads nothing but its arguments: "the Scaler is a pure function" (R105). -/
def lutOf (form : ShiftForm) (mb dr w : Word) (ws : List Word) : Option (List Duty) :=
  let mm := extremes (F64.ofBin32 w) (ws.map F64.ofBin32)
  if mm.2.eq mm.1 then none
  else
    let scale := scaleFactor mb dr mm.1 mm.2
    let shift := shiftTerm form mb dr mm.1 scale
    some ((w :: ws).map fun x => clampDuty (scaledValue shift scale (F64.ofBin32 x)))

/-- The scaler step on its samples, after the configuration check: NONFINITE_SAMPLE, DEGENERATE, or the LUT (R105). -/
def scaleSamples (w : Word) (ws : List Word) (s : State) : State :=
  match firstNonfinite (w :: ws) with
  | some i => enterFatal .nonfiniteSample (BitVec.ofNat 32 i) s
  | none =>
    match lutOf s.cfg.shiftForm s.maxBright s.dynRange w ws with
    | none => enterFatal .degenerate s.len s
    | some duties => { s with lut := s.lut.writeList 0 duties, lutValid := true, life := .scaled }

/-- SCALER_STEP (R105): enabled in SCALING; checks in the order CFG_RANGE, NONFINITE_SAMPLE, DEGENERATE. -/
def execScalerStep (s : State) : Result :=
  if s.life = .scaling then
    if cfgBad s.maxBright s.dynRange ≠ 0 then
      .next (enterFatal .cfgRange (cfgBad s.maxBright s.dynRange) s)
    else
      match s.samples with
      | none => .fault (.sampleIndex s.cfg.dataCap)
      | some [] => .fault .emptySeries
      | some (w :: ws) => .next (scaleSamples w ws s)
  else .next s

end Sys2Proof.Machine
end

