-- ==== Sys2Proof/Machine/Dispatch.lean ====
section
/-! DEFINITION. The meaning of every operation: one arm per constructor of Instr. -/

namespace Sys2Proof.Machine

def exec (i : Instr) (s : State) : Host.Outcome State Fault Refusal :=
  match i with
  | .busMisalignedW wstrb addr wdata => Sys2Proof.Machine.execBusMisalignedW wstrb addr wdata s
  | .busMisalignedR addr => Sys2Proof.Machine.execBusMisalignedR addr s
  | .nop => Sys2Proof.Machine.execNop s
  | .loadCommit => Sys2Proof.Machine.execLoadCommit s
  | .scale => Sys2Proof.Machine.execScale s
  | .start => Sys2Proof.Machine.execStart s
  | .cmdIllegal v => Sys2Proof.Machine.execCmdIllegal v s
  | .wrStatus v => Sys2Proof.Machine.execWrStatus v s
  | .ldb b ignored => Sys2Proof.Machine.execLdb b ignored s
  | .wrMaxBright v => Sys2Proof.Machine.execWrMaxBright v s
  | .wrDynRange v => Sys2Proof.Machine.execWrDynRange v s
  | .wrTblAddr v => Sys2Proof.Machine.execWrTblAddr v s
  | .wrIrqEn v => Sys2Proof.Machine.execWrIrqEn v s
  | .busUnmappedW addr wdata => Sys2Proof.Machine.execBusUnmappedW addr wdata s
  | .busUnmappedR addr => Sys2Proof.Machine.execBusUnmappedR addr s
  | .wrRo r wdata => Sys2Proof.Machine.execWrRo r wdata s
  | .busPartial wstrb addr wdata => Sys2Proof.Machine.execBusPartial wstrb addr wdata s
  | .rdWo r => Sys2Proof.Machine.execRdWo r s
  | .rdLut => Sys2Proof.Machine.execRdLut s
  | .rdSample => Sys2Proof.Machine.execRdSample s
  | .rd r => Sys2Proof.Machine.execRd r s
  | .lineOn => Sys2Proof.Machine.execLineOn s
  | .lineOff => Sys2Proof.Machine.execLineOff s
  | .lineOther text ovf => Sys2Proof.Machine.execLineOther text ovf s
  | .scalerStep => Sys2Proof.Machine.execScalerStep s
  | .tickDue => Sys2Proof.Machine.execTickDue s
  | .tickStep => Sys2Proof.Machine.execTickStep s
  | .rxAccept b => Sys2Proof.Machine.execRxAccept b s
  | .dispatch => Sys2Proof.Machine.execDispatch s
  | .txDepart => Sys2Proof.Machine.execTxDepart s
  | .pwmReload => Sys2Proof.Machine.execPwmReload s
  | .reset => Sys2Proof.Machine.execReset s

end Sys2Proof.Machine
end

