-- ==== Sys2Proof/Machine/Timing.lean ====
section
/-! DEFINITION. One clock cycle of the timed block: the playback timebase (R120), the command poll timer (R130) and the PWM
generator (R121). The untimed steps TICK_DUE and PWM_RELOAD stand for the two effects of a cycle that they can see. -/

namespace Sys2Proof.Machine

/-- The playback timebase (R120): in RUNNING a tick falls due every TICK_CYCLES cycles. -/
def clockTimebase (s : State) : State :=
  if s.life = .running then
    if s.tb.toNat = s.cfg.tickCycles - 1 then { s with tb := 0, tickPend := true } else { s with tb := s.tb + 1 }
  else s

/-- The command poll timer (R130): in RUNNING it counts down, and starts again after a poll that found no line. -/
def clockPoll (s : State) : State :=
  if s.life = .running then
    if s.cp ≠ 0 then { s with cp := s.cp - 1 }
    else if s.linePend then s
    else { s with cp := BitVec.ofNat 32 s.cfg.cmdIdleCycles }
  else s

/-- The PWM generator (R121), in every state: prescaler, period counter, new duty at the period boundary. -/
def clockPwm (s : State) : State :=
  if s.presc.toNat = s.cfg.pwmPrescale - 1 then
    if s.pwmCnt = 65534 then
      { s with presc := 0, pwmCnt := 0, active0 := s.pwm0Duty, active1 := s.pwm1Duty }
    else { s with presc := 0, pwmCnt := s.pwmCnt + 1 }
  else { s with presc := s.presc + 1 }

/-- One clock cycle. `bus_ready` tells of an access in the cycle that ends (R61, log 7). -/
def clockCycle (s : State) : State := { clockPwm (clockPoll (clockTimebase s)) with busReady := false }

/-- When the timed block polls and finds a line (R130): the dispatch step is due. -/
def State.dispatchDue (s : State) : Bool := s.life == .running && s.cp == 0#32 && s.linePend

end Sys2Proof.Machine
end

