-- ==== Sys2Proof/Machine/Fetch.lean ====
section
/-! DEFINITION. Which step comes next (60_exceptions.md R161): the turn the environment offers, and the instruction that
turn's agent runs. -/

namespace Sys2Proof.Machine

/-- The next turn: the head of the schedule, or a free value when nothing is scheduled (R160, log 1). -/
def State.nextTurn (s : State) : Turn :=
  match s.schedule with
  | t :: _ => t
  | [] => Config.environment s.envCount

/-- The state in which the next turn's step runs: the turn is used up and its input levels are on the ports. -/
def State.takeTurn (s : State) : State :=
  match s.schedule with
  | t :: ts => { s with schedule := ts, inp := t.inputs }
  | [] => { s with envCount := s.envCount + 1, inp := (Config.environment s.envCount).inputs }

/-- What a turn brings. -/
inductive Fetched
  /-- An operation of the opcode table. -/
  | run (i : Instr)
  /-- One clock cycle of the timed block. -/
  | clock
  /-- Nothing is offered: `bus_valid = 0` or `rx_valid = 0`. -/
  | idle
deriving DecidableEq, Repr

/-- The bus access on the input ports (R135): a write word or a read word. -/
def busWireOf (p : Inputs) : Wire :=
  if p.busWrite then .busw (buswWord p.busWstrb p.busAddr p.busWdata) else .busr p.busAddr

/-- The operation an agent runs with input levels `p` (R161). `rst = 1` makes every turn a reset (R173). -/
def fetch (a : Agent) (p : Inputs) : Fetched :=
  if p.rst then .run .reset
  else match a with
    | .host => if p.busValid then .run (decode (busWireOf p)) else .idle
    | .scaler => .run .scalerStep
    | .tickDue => .run .tickDue
    | .tick => .run .tickStep
    | .dispatch => .run .dispatch
    | .rxenv => if p.rxValid then .run (.rxAccept p.rxData) else .idle
    | .txenv => .run .txDepart
    | .pwmgen => .run .pwmReload
    | .clk => .clock

/-- A turn of the host that offers a bus word, the other levels as they are and `rst` low. -/
def hostTurn (p : Inputs) : Wire → Turn
  | .busw w => ⟨.host, { p with rst := false, busValid := true, busWrite := true, busWstrb := w.extractLsb' 40 4,
                                busAddr := w.extractLsb' 32 8, busWdata := w.extractLsb' 0 32 }⟩
  | .busr a => ⟨.host, { p with rst := false, busValid := true, busWrite := false, busAddr := a }⟩
  | .line _ _ => ⟨.dispatch, { p with rst := false }⟩

/-- `s` with the word placed where the next step fetches (log 1, log 11): a bus word as the host's next access; a line as
the complete line that waits in the buffer of a RUNNING block whose command task has the next turn. -/
def State.placeWire (w : Wire) (s : State) : State :=
  let s' := { s with schedule := hostTurn s.inp w :: s.schedule }
  match w with
  | .busw _ | .busr _ => s'
  | .line kept ovf =>
    { s' with life := .running, lineBuf := Mem.writeList (w := 8) s.lineBuf 0 kept,
              lineLen := BitVec.ofNat 16 kept.length, lineOvf := ovf, linePend := true }

end Sys2Proof.Machine
end

