-- ==== Sys2Proof/Machine/Step.lean ====
section
/-! DEFINITION. One step of the block (20_memory.md R71): the next turn's agent takes its atomic step. -/

namespace Sys2Proof.Machine

/-- One step: the next turn is taken from the environment, and what it brings is run. -/
def step (s : State) : Host.Outcome State Fault Refusal :=
  match fetch s.nextTurn.agent s.nextTurn.inputs with
  | .run i => exec i s.takeTurn
  | .clock => .next (clockCycle s.takeTurn)
  | .idle => .next s.takeTurn

/-- `s` with a table word stored where `step` fetches its next instruction (the host's fixed name; log 1, log 11). A number
that is no word of the block leaves `s` as it is. -/
def State.withFetchWord (s : State) (nbits w : Nat) : State :=
  match wireOfBits nbits w with
  | .ok x => s.placeWire x
  | .error _ => s

end Sys2Proof.Machine
end

