-- ==== Sys2Proof/Machine/Program.lean ====
section
/-! DEFINITION. The program notation of 30_encoding.md (R94, R95), the PackedWaveform layout (R85), and the run of a list of
operations. A host program is a list of operations; the environment steps stand in the same list (R94). -/

namespace Sys2Proof.Machine

/-- The operations in order, each one atomic step (R71), stopping at the first fault or refusal. -/
def runInstrs : List Instr → State → Result
  | [], s => .next s
  | i :: is, s =>
    match exec i s with
    | .next t => runInstrs is t
    | .fault f => .fault f
    | .refused r => .refused r

/-- `n` steps of the block, whatever turns come, stopping at the first fault or refusal. -/
def runSteps : Nat → State → Result
  | 0, s => .next s
  | n + 1, s =>
    match step s with
    | .next t => runSteps n t
    | .fault f => .fault f
    | .refused r => .refused r

/-- `WR REG, v` (R94). -/
def wr (r : Reg) (v : Word) : Instr := decodeW 0xF r.offset v

/-- `WRS off, v, s` (R94). -/
def wrs (off : BitVec 8) (v : Word) (strobe : BitVec 4) : Instr := decodeW strobe off v

/-- `RD REG` (R94). -/
def rdReg (r : Reg) : Instr := decodeR r.offset

/-- `RDA off` (R94). -/
def rda (off : BitVec 8) : Instr := decodeR off

/-- The four bytes of a field, most significant first (R63, R86). -/
def wordBytes (w : Word) : List Byte := [w.extractLsb' 24 8, w.extractLsb' 16 8, w.extractLsb' 8 8, w.extractLsb' 0 8]

/-- Format PACKED (R85): the count, then the samples, each field big-endian. -/
def packed (count : Word) (xs : List Word) : List Byte := wordBytes count ++ xs.flatMap wordBytes

/-- Bytes to the loader, one `LDB` each (R94). -/
def ldbs (bs : List Byte) : List Instr := bs.map fun b => .ldb b 0

/-- `LDW w` (R95). -/
def ldw (w : Word) : List Instr := ldbs (wordBytes w)

/-- `LDWAVE` (R95), its samples given as BIN32 patterns. -/
def ldwave (xs : List Word) : List Instr := ldw (BitVec.ofNat 32 xs.length) ++ xs.flatMap ldw

/-- `WAITSCALE` (R95) exits when a read of STATUS shows BUSY = 0. -/
def waitScaleDone (s : State) : Bool := !(s.readValue .status).getLsbD 3

/-- `@RX bytes` (R94): one RX accept step per byte. -/
def rxBytes (bs : List Byte) : List Instr := bs.map .rxAccept

/-- One control line, end to end: its bytes and LF arrive, it is dispatched, and `n` echo bytes leave. -/
def lineProgram (bs : List Byte) (n : Nat) : List Instr :=
  rxBytes bs ++ [.rxAccept lfByte, .dispatch] ++ List.replicate n .txDepart

/-- `@TICK` (95_test_vectors.md): TICK_DUE, then the tick step. -/
def tickProgram : List Instr := [.tickDue, .tickStep]

end Sys2Proof.Machine
end

