-- ==== Sys2Proof/Safety.lean ====
section
/-! DEFINITION. What counts as a good state (`Inv`, the bounds the spec states for the block's registers), which steps are
enabled (60_exceptions.md R161), fair runs (R163), and the turns the timed block can take (R130, R185). -/

namespace Sys2Proof.Machine

/-- Every listed index is below `n`. -/
abbrev Mem.below {w : Nat} (m : Mem w) (n : Nat) : Prop := ∀ c ∈ m, c.1 < n

/-- The memories are canonical and hold only entries the spec lets be written (R51, R52, R55, R78). -/
abbrev InvMem (s : State) : Prop :=
  (Mem.wf s.sample = true ∧ Mem.below s.sample s.len.toNat) ∧ (Mem.wf s.lut = true ∧ Mem.below s.lut s.len.toNat) ∧
  (Mem.wf (w := 8) s.lineBuf = true ∧ Mem.below (w := 8) s.lineBuf s.cfg.lineMax)

/-- DECL_COUNT, LEN and TRUNC before and after the header (R30, R35, R36). -/
abbrev InvHeader (s : State) : Prop :=
  (s.pos.toNat < 4 → s.declCount = 0 ∧ s.len = 0 ∧ s.trunc = false) ∧
  (4 ≤ s.pos.toNat → s.len.toNat = min s.declCount.toNat s.cfg.dataCap ∧
    s.trunc = decide (s.cfg.dataCap < s.declCount.toNat))

/-- A waveform was committed (R97) and is still the one in use. -/
abbrev Committed (s : State) : Prop :=
  1 ≤ s.len.toNat ∧ 4 + 4 * s.len.toNat ≤ s.pos.toNat ∧ s.trailing = false

/-- What each lifecycle state guarantees (R24, R39, R53, R105, R118, R119). -/
abbrev InvLife (s : State) : Prop :=
  (s.life = .load ∨ s.life = .loaded ∨ s.life = .scaling → s.lutValid = false) ∧
  (s.life = .loaded ∨ s.life = .scaling ∨ s.life = .scaled ∨ s.life = .running → Committed s) ∧
  (s.life = .scaled ∨ s.life = .running → s.lutValid = true) ∧
  (s.lutValid = true → 2 ≤ s.len.toNat) ∧
  (s.life = .running → s.timeIndex.toNat < s.len.toNat ∧ s.pwm0Duty = s.lut.read s.timeIndex.toNat)

/-- ERR_CODE and ERR_INFO (R31, R32, R150). -/
abbrev InvErr (s : State) : Prop :=
  (s.life = .fatal → 1 ≤ s.errCode.toNat ∧ s.errCode.toNat ≤ 8) ∧
  (s.life ≠ .fatal → s.errCode = 0 ∧ s.errInfo = 0)

/-- Both channels show one tick's duty (R40, R119, R121). -/
abbrev InvPwm (s : State) : Prop := s.pwm1Duty = s.pwm0Duty ∧ s.active1 = s.active0

/-- The timers stay in their ranges (R57, R58, R59). -/
abbrev InvTimers (s : State) : Prop :=
  s.tb.toNat < s.cfg.tickCycles ∧ s.cp.toNat ≤ s.cfg.cmdIdleCycles ∧ s.presc.toNat < s.cfg.pwmPrescale ∧
  s.pwmCnt.toNat ≤ 65534

/-- The line buffer and the echo queue (R55, R56, R88, R125). -/
abbrev InvLine (s : State) : Prop :=
  s.lineLen.toNat ≤ s.cfg.lineMax ∧ (s.lineOvf = true → s.lineLen.toNat = s.cfg.lineMax) ∧
  (∀ c ∈ s.lineBuf, c.2 ≠ lfByte) ∧ s.txq.length ≤ s.cfg.txDepth ∧
  (s.linePend = true → s.life = .running ∨ s.life = .fatal)

/-- The invariant of the block: what holds after reset and after every step. -/
abbrev Inv (s : State) : Prop :=
  s.cfg.Valid ∧ InvMem s ∧ InvHeader s ∧ InvLife s ∧ InvErr s ∧ InvPwm s ∧ InvTimers s ∧ InvLine s

/-- The guards of R161, on the state and the input levels. A host access is always served (R135). -/
def State.enabled (a : Agent) (s : State) : Bool :=
  match a with
  | .host | .pwmgen | .clk => true
  | .scaler => s.life == .scaling
  | .tickDue => s.life == .running
  | .tick => s.life == .running && s.tickPend
  | .dispatch =>
    s.canDispatch (decodeCommand (lineBytes s.lineBuf s.lineLen.toNat) s.lineOvf).2
  | .rxenv => s.rxReady
  | .txenv => s.txValid && s.inp.txReady

/-- An unending run: every step answers a next state. -/
def IsRun (r : Nat → State) : Prop := ∀ n, step (r n) = .next (r (n + 1))

/-- Weak fairness (R163) to the block's own steps: one that stays enabled is eventually taken. -/
def WeaklyFair (r : Nat → State) : Prop :=
  ∀ a, a = .scaler ∨ a = .tick ∨ a = .dispatch → ∀ n, (∀ m, n ≤ m → (r m).enabled a = true) →
    ∃ m, n ≤ m ∧ (r m).nextTurn.agent = a ∧ (r m).nextTurn.inputs.rst = false

/-- The turns the timed block can take: ticks and PWM reloads come from the clock (R120, R121), a dispatch only at a poll
(R130), the scaler step SCALE_LATENCY cycles after SCALE (R185; `elapsed` counts them). -/
def timedAllows (elapsed : Nat) (a : Agent) (s : State) : Bool :=
  match a with
  | .tickDue | .pwmgen => false
  | .dispatch => s.cp == 0#32
  | .scaler => elapsed == Config.scaleLatency s.len.toNat
  | .host | .tick | .rxenv | .txenv | .clk => true

end Sys2Proof.Machine
end

