-- ==== Sys2Proof/Certificates/Slice0/Obligations.lean ====
section
/-! DEFINITION. The statements for the provers. Each docstring names the rules of spec/ it formalises; where a clause rests on
a choice of the model, it names the log entry. -/

open Sys2Proof Sys2Proof.Machine

/-! ### Encoding -/

/-- R26, R80 to R83, R89, R91, R141: the register map, and words written out from the encodings decode to the operations they
stand for. That `R:40` is RD_LUT and not RD is the model's choice, after the table (log 14). -/
def Obligations.SpecWordsDecode : Prop :=
  decode (.busw 0xF0400000000) = .nop ∧ decode (.busw 0xF0400000001) = .loadCommit ∧
  decode (.busw 0xF0400000002) = .scale ∧ decode (.busw 0xF0400000003) = .start ∧
  decode (.busw 0xF1400000041) = .ldb 0x41 0 ∧ decode (.busw 0xF243F000000) = .wrMaxBright 0x3F000000 ∧
  decode (.busw 0x114000000AA) = .busPartial 0x1 0x14 0xAA ∧ decode (.busr 0x40) = .rdLut ∧
  decode (.busr 0x09) = .busMisalignedR 0x09 ∧ decode (.line [0x09, 0x6F, 0x66, 0x66, 0x20, 0x0D] false) = .lineOff ∧
  Reg.offset .id = 0x00 ∧ Reg.offset .cmd = 0x04 ∧ Reg.offset .status = 0x08 ∧ Reg.offset .errCode = 0x0C ∧
  Reg.offset .errInfo = 0x10 ∧ Reg.offset .loadData = 0x14 ∧ Reg.offset .loadPos = 0x18 ∧
  Reg.offset .declCount = 0x1C ∧ Reg.offset .len = 0x20 ∧ Reg.offset .maxBright = 0x24 ∧
  Reg.offset .dynRange = 0x28 ∧ Reg.offset .timeIndex = 0x2C ∧ Reg.offset .pwm0Duty = 0x30 ∧
  Reg.offset .pwm1Duty = 0x34 ∧ Reg.offset .tickCount = 0x38 ∧ Reg.offset .tblAddr = 0x3C ∧
  Reg.offset .lutData = 0x40 ∧ Reg.offset .sampleData = 0x44 ∧ Reg.offset .lineCount = 0x48 ∧
  Reg.offset .lastCmd = 0x4C ∧ Reg.offset .irqEn = 0x50 ∧ Reg.offset .cap = 0x54 ∧ Reg.offset .params = 0x58 ∧
  Reg.offset .tickCycles = 0x5C

/-- R91: "every BUSW and every BUSR word decodes to exactly one operation, by the first matching line". The model's choice
(log 14): R91 and R139 have 0x40 and 0x44 under RD, the table and the model have them as RD_LUT and RD_SAMPLE (R141, R142). -/
def Obligations.BusDecodeMap : Prop :=
  (∀ (wstrb : BitVec 4) (addr : BitVec 8) (wdata : Word),
    let i := decode (.busw (buswWord wstrb addr wdata))
    (addr.toNat % 4 ≠ 0 → i = .busMisalignedW wstrb addr wdata) ∧
    (addr.toNat % 4 = 0 → wstrb ≠ 0xF → i = .busPartial wstrb addr wdata) ∧
    (addr.toNat % 4 = 0 → wstrb = 0xF → 0x60 ≤ addr.toNat → i = .busUnmappedW addr wdata) ∧
    (wstrb = 0xF → addr = 0x04 →
      (wdata = 0 → i = .nop) ∧ (wdata = 1 → i = .loadCommit) ∧ (wdata = 2 → i = .scale) ∧ (wdata = 3 → i = .start) ∧
      (3 < wdata.toNat → i = .cmdIllegal wdata)) ∧
    (wstrb = 0xF → addr = 0x08 → i = .wrStatus wdata) ∧
    (wstrb = 0xF → addr = 0x14 → i = .ldb (wdata.setWidth 8) ((wdata >>> 8).setWidth 24)) ∧
    (wstrb = 0xF → addr = 0x24 → i = .wrMaxBright wdata) ∧
    (wstrb = 0xF → addr = 0x28 → i = .wrDynRange wdata) ∧
    (wstrb = 0xF → addr = 0x3C → i = .wrTblAddr wdata) ∧
    (wstrb = 0xF → addr = 0x50 → i = .wrIrqEn wdata) ∧
    (wstrb = 0xF → addr.toNat % 4 = 0 → addr.toNat < 0x60 →
      addr ∉ [0x04#8, 0x08#8, 0x14#8, 0x24#8, 0x28#8, 0x3C#8, 0x50#8] → ∃ r : Reg, r.offset = addr ∧ i = .wrRo r wdata)) ∧
  (∀ addr : BitVec 8,
    let i := decode (.busr addr)
    (addr.toNat % 4 ≠ 0 → i = .busMisalignedR addr) ∧
    (addr.toNat % 4 = 0 → 0x60 ≤ addr.toNat → i = .busUnmappedR addr) ∧
    (addr = 0x04 → i = .rdWo .cmd) ∧ (addr = 0x14 → i = .rdWo .loadData) ∧
    (addr = 0x40 → i = .rdLut) ∧ (addr = 0x44 → i = .rdSample) ∧
    (addr.toNat % 4 = 0 → addr.toNat < 0x60 → addr ∉ [0x04#8, 0x14#8, 0x40#8, 0x44#8] →
      ∃ r : Reg, r.offset = addr ∧ i = .rd r))

/-- R80, R81, R89, R91: decoding the word of a well-formed operation gives it back, with every operand at every value. -/
def Obligations.DecodeInvertsEncode : Prop :=
  ∀ (i : Instr) (w : Wire), i.wf = true → encode i = some w → decode w = i

/-- R91: the decoder is total; what it reads is always well formed (lines: R88, R89). That it drops no bit of a bus word is
the model's choice: ignored bits, as those of LDB (R83), are kept as operands (log 14). -/
def Obligations.EncodeInvertsDecodeOnTheBus : Prop :=
  (∀ w : BitVec 44, encode (decode (.busw w)) = some (.busw w) ∧ (decode (.busw w)).wf = true) ∧
  (∀ a : BitVec 8, encode (decode (.busr a)) = some (.busr a) ∧ (decode (.busr a)).wf = true) ∧
  (∀ (kept : List Byte) (ovf : Bool), lfByte ∉ kept → kept.length ≤ 65535 → (decode (.line kept ovf)).wf = true)

/-- R21: `strip` removes from both ends every byte of the whitespace set, and nothing else. -/
def Obligations.StripRemovesExactlyTheEnds : Prop :=
  ∀ s : List Byte,
    let ws : List Byte := [0x09, 0x0A, 0x0B, 0x0C, 0x0D, 0x20]
    ∃ a b : List Byte, s = a ++ strip s ++ b ∧ (∀ x ∈ a, x ∈ ws) ∧ (∀ x ∈ b, x ∈ ws) ∧
      (∀ x ∈ (strip s).head?, x ∉ ws) ∧ (∀ x ∈ (strip s).getLast?, x ∉ ws)

/-! ### The step -/

/-- R135, R71: a host turn that offers an access runs the decoded word; one that offers none changes nothing. What a turn
is and how it is used up is the model's own (log 1). -/
def Obligations.StepRunsTheOfferedAccess : Prop :=
  ∀ s : State, s.nextTurn.agent = .host → s.nextTurn.inputs.rst = false →
    (s.nextTurn.inputs.busValid = true → s.nextTurn.inputs.busWrite = true →
      step s = exec (decode (.busw (buswWord s.nextTurn.inputs.busWstrb s.nextTurn.inputs.busAddr s.nextTurn.inputs.busWdata)))
        s.takeTurn) ∧
    (s.nextTurn.inputs.busValid = true → s.nextTurn.inputs.busWrite = false →
      step s = exec (decode (.busr s.nextTurn.inputs.busAddr)) s.takeTurn) ∧
    (s.nextTurn.inputs.busValid = false → step s = .next s.takeTurn)

/-- R161, R173: every other turn runs its agent's step; `rst = 1` makes any turn a reset. The model's choices: the schedule,
whose turn is used up and whose input levels drive the ports (log 1); the turn of `clk`, no agent of R161, which runs one
clock cycle (log 10); and that `rst` makes a turn of any agent a reset (log 13). -/
def Obligations.StepRunsTheTurnsAgent : Prop :=
  ∀ (s : State) (t : Turn) (ts : List Turn), s.schedule = t :: ts →
    let u := { s with schedule := ts, inp := t.inputs }
    (t.inputs.rst = true → step s = exec .reset u) ∧
    (t.inputs.rst = false →
      (t.agent = .scaler → step s = exec .scalerStep u) ∧ (t.agent = .tickDue → step s = exec .tickDue u) ∧
      (t.agent = .tick → step s = exec .tickStep u) ∧ (t.agent = .dispatch → step s = exec .dispatch u) ∧
      (t.agent = .rxenv → t.inputs.rxValid = true → step s = exec (.rxAccept t.inputs.rxData) u) ∧
      (t.agent = .rxenv → t.inputs.rxValid = false → step s = .next u) ∧
      (t.agent = .txenv → step s = exec .txDepart u) ∧ (t.agent = .pwmgen → step s = exec .pwmReload u) ∧
      (t.agent = .clk → step s = .next (clockCycle u)))

/-- The step after `withFetchWord` runs the placed word (the host's fixed name; log 1). -/
def Obligations.PlacedBusWordRunsNext : Prop :=
  ∀ (s : State) (w : Nat),
    (w < 2 ^ 44 → step (s.withFetchWord 48 w) = exec (decode (.busw (BitVec.ofNat 44 w))) (s.withFetchWord 48 w).takeTurn) ∧
    (w < 2 ^ 8 → step (s.withFetchWord 8 w) = exec (decode (.busr (BitVec.ofNat 8 w))) (s.withFetchWord 8 w).takeTurn)

/-! ### Host reads -/

/-- R139, R28 to R50, R68: every register reads as its rule says, and the read changes nothing but the bus response. -/
def Obligations.RegisterReads : Prop :=
  ∀ (s : State) (r : Reg), r.plainRead = true →
    exec (.rd r) s = .next { s with busReady := true, busErr := false, busRdata := s.readValue r } ∧
    s.readValue .id = 0x494E4631 ∧ s.readValue .errCode = s.errCode.setWidth 32 ∧ s.readValue .errInfo = s.errInfo ∧
    s.readValue .loadPos = BitVec.ofNat 32 (min s.pos.toNat (2 ^ 32 - 1)) ∧ s.readValue .declCount = s.declCount ∧
    s.readValue .len = s.len ∧ s.readValue .maxBright = s.maxBright ∧ s.readValue .dynRange = s.dynRange ∧
    s.readValue .timeIndex = s.timeIndex ∧ s.readValue .pwm0Duty = s.pwm0Duty.setWidth 32 ∧
    s.readValue .pwm1Duty = s.pwm1Duty.setWidth 32 ∧ s.readValue .tickCount = s.tickCount ∧
    s.readValue .tblAddr = s.tblAddr ∧ s.readValue .lineCount = s.lineCount ∧
    s.readValue .lastCmd = s.lastCmd.setWidth 32 ∧ s.readValue .irqEn = (if s.fatalIe then 1 else 0) ∧
    s.readValue .cap = BitVec.ofNat 32 s.cfg.dataCap ∧ s.readValue .tickCycles = BitVec.ofNat 32 s.cfg.tickCycles

/-- R30: the fields of STATUS stand at their bits, and bits 31:11 read 0. -/
def Obligations.StatusFields : Prop :=
  ∀ s : State, (s.readValue .status).toNat =
    (match s.life with | .load => 0 | .loaded => 1 | .scaling => 2 | .scaled => 3 | .running => 4 | .fatal => 7) +
    8 * (if s.life = .scaling then 1 else 0) + 16 * s.trunc.toNat + 32 * s.relay.toNat + 64 * s.linePend.toNat +
    128 * s.lutValid.toNat + 256 * s.cmdErr.toNat + 512 * s.rxOverlong.toNat + 1024 * (if s.txq = [] then 1 else 0)

/-- R49: PARAMS holds LINE_MAX in bits 15:0 and SHIFT_FORM in bit 16; bits 31:17 read 0. -/
def Obligations.ParamsFields : Prop :=
  ∀ s : State, s.cfg.Valid → (s.readValue .params).toNat =
    s.cfg.lineMax + 65536 * (if s.cfg.shiftForm = .reference then 1 else 0)

/-- R140: `R:04` and `R:14` read 0 without error and change nothing. -/
def Obligations.WriteOnlyRegistersReadZero : Prop :=
  (∀ (s : State) (r : Reg), r.writeOnly = true →
    exec (.rdWo r) s = .next { s with busReady := true, busErr := false, busRdata := 0 }) ∧
  (∀ r : Reg, r.writeOnly = true ↔ r = .cmd ∨ r = .loadData) ∧
  decode (.busr 0x04) = .rdWo .cmd ∧ decode (.busr 0x14) = .rdWo .loadData

/-- R141: the LUT window, gated by `lut_valid` and LEN. -/
def Obligations.LutWindowRead : Prop :=
  ∀ s : State, s.len.toNat ≤ s.cfg.dataCap →
    exec .rdLut s = .next { s with busReady := true, busErr := false, busRdata :=
      if s.lutValid = true ∧ s.tblAddr.toNat < s.len.toNat then (s.lut.read s.tblAddr.toNat).setWidth 32 else 0 }

/-- R142: the sample window, gated by LEN and `pos`. -/
def Obligations.SampleWindowRead : Prop :=
  ∀ s : State, s.len.toNat ≤ s.cfg.dataCap →
    exec .rdSample s = .next { s with busReady := true, busErr := false, busRdata :=
      if s.tblAddr.toNat < s.len.toNat ∧ 4 + 4 * (s.tblAddr.toNat + 1) ≤ s.pos.toNat then s.sample.read s.tblAddr.toNat
      else 0 }

/-! ### Host writes -/

/-- R136, R137, R138: a misaligned access, an aligned partial write and an aligned full access from 0x60 on complete with
`bus_err = 1` and data 0 and change nothing else. -/
def Obligations.RefusedAccessesChangeNothing : Prop :=
  ∀ (s : State) (wstrb : BitVec 4) (addr : BitVec 8) (wdata : Word),
    let t := { s with busReady := true, busErr := true, busRdata := 0 }
    let w := Wire.busw (buswWord wstrb addr wdata)
    (exec (.busMisalignedW wstrb addr wdata) s = .next t ∧ exec (.busMisalignedR addr) s = .next t ∧
      exec (.busPartial wstrb addr wdata) s = .next t ∧ exec (.busUnmappedW addr wdata) s = .next t ∧
      exec (.busUnmappedR addr) s = .next t) ∧
    (addr.toNat % 4 ≠ 0 → exec (decode w) s = .next t ∧ exec (decode (.busr addr)) s = .next t) ∧
    (addr.toNat % 4 = 0 → wstrb ≠ 0xF → exec (decode w) s = .next t) ∧
    (addr.toNat % 4 = 0 → wstrb = 0xF → 0x60 ≤ addr.toNat → exec (decode w) s = .next t) ∧
    (addr.toNat % 4 = 0 → 0x60 ≤ addr.toNat → exec (decode (.busr addr)) s = .next t)

/-- R143, R147: a full write to a read-only register and the command word 0 have no effect and no error, in every state. -/
def Obligations.NopAndReadOnlyWritesHaveNoEffect : Prop :=
  (∀ (s : State) (r : Reg) (v : Word), r.readOnly = true →
    exec (.wrRo r v) s = .next { s with busReady := true, busErr := false, busRdata := 0 } ∧
    exec .nop s = .next { s with busReady := true, busErr := false, busRdata := 0 }) ∧
  (∀ (r : Reg) (v : Word), r.readOnly = true → decode (.busw (buswWord 0xF r.offset v)) = .wrRo r v) ∧
  (∀ r : Reg, r.readOnly = false ↔
    r ∈ [Reg.cmd, .status, .loadData, .maxBright, .dynRange, .tblAddr, .irqEn]) ∧
  decode (.busw (buswWord 0xF 0x04 0)) = .nop

/-- R148: a CMD word above 3, and every state-gated operation outside its states, sets CMD_ERR and nothing else changes. -/
def Obligations.IllegalOperationsOnlySetCmdErr : Prop :=
  ∀ (s : State) (v : Word) (b : Byte) (ig : BitVec 24),
    let t := { s with cmdErr := true, busReady := true, busErr := false, busRdata := 0 }
    exec (.cmdIllegal v) s = .next t ∧ (3 < v.toNat → decode (.busw (buswWord 0xF 0x04 v)) = .cmdIllegal v) ∧
    (s.life ≠ .load → exec (.ldb b ig) s = .next t ∧ exec .loadCommit s = .next t) ∧
    (s.life ≠ .load → s.life ≠ .loaded → exec (.wrMaxBright v) s = .next t ∧ exec (.wrDynRange v) s = .next t) ∧
    (s.life ≠ .loaded → exec .scale s = .next t) ∧
    (s.life ≠ .scaled → exec .start s = .next t)

/-- R144: WR STATUS clears the sticky bits it writes 1 to, and nothing else, in every state. -/
def Obligations.StatusWriteClearsStickyBits : Prop :=
  ∀ (s : State) (v : Word),
    decode (.busw (buswWord 0xF 0x08 v)) = .wrStatus v ∧
    exec (.wrStatus v) s = .next { s with
      cmdErr := if v.getLsbD 8 then false else s.cmdErr, rxOverlong := if v.getLsbD 9 then false else s.rxOverlong,
      busReady := true, busErr := false, busRdata := 0 }

/-- R145, R146: TBL_ADDR stores any value; IRQ_EN stores bit 0, and `irq` follows at once. -/
def Obligations.TableAddressAndInterruptEnableWrites : Prop :=
  ∀ (s : State) (v : Word),
    let t := { s with fatalIe := v.getLsbD 0, busReady := true, busErr := false, busRdata := 0 }
    decode (.busw (buswWord 0xF 0x3C v)) = .wrTblAddr v ∧ decode (.busw (buswWord 0xF 0x50 v)) = .wrIrqEn v ∧
    exec (.wrTblAddr v) s = .next { s with tblAddr := v, busReady := true, busErr := false, busRdata := 0 } ∧
    exec (.wrIrqEn v) s = .next t ∧ (t.irq = true ↔ s.life = .fatal ∧ v.getLsbD 0 = true)

/-- R102, R103: in LOAD and LOADED the configuration is stored unchecked; otherwise CMD_ERR and nothing else. -/
def Obligations.ConfigurationWrites : Prop :=
  ∀ (s : State) (v : Word),
    decode (.busw (buswWord 0xF 0x24 v)) = .wrMaxBright v ∧ decode (.busw (buswWord 0xF 0x28 v)) = .wrDynRange v ∧
    exec (.wrMaxBright v) s = .next (if s.life = .load ∨ s.life = .loaded
      then { s with maxBright := v, busReady := true, busErr := false, busRdata := 0 }
      else { s with cmdErr := true, busReady := true, busErr := false, busRdata := 0 }) ∧
    exec (.wrDynRange v) s = .next (if s.life = .load ∨ s.life = .loaded
      then { s with dynRange := v, busReady := true, busErr := false, busRdata := 0 }
      else { s with cmdErr := true, busReady := true, busErr := false, busRdata := 0 })

/-! ### Loader -/

/-- R96, R83: one byte in LOAD; the upper bits of the written word are ignored. A header byte assembles DECL_COUNT, LEN and
TRUNC; a payload byte assembles sample `k`, is beyond the declared payload, or is discarded. Every other field, and every
other sample, is unchanged. Outside LOAD: CMD_ERR only. -/
def Obligations.LoadByte : Prop :=
  (∀ v : Word, decode (.busw (buswWord 0xF 0x14 v)) = .ldb (v.setWidth 8) ((v >>> 8).setWidth 24)) ∧
  (∀ (s : State) (b : Byte) (ig : BitVec 24), s.life ≠ .load →
    exec (.ldb b ig) s = .next { s with cmdErr := true, busReady := true, busErr := false, busRdata := 0 }) ∧
  ∀ (s : State) (b : Byte) (ig : BitVec 24), s.life = .load → s.len.toNat ≤ s.cfg.dataCap → Mem.wf s.sample = true →
    let p := s.pos.toNat
    let c := s.countSr <<< 8 ||| b.setWidth 32
    let k := (p - 4) / 4
    let w := s.wordSr <<< 8 ||| b.setWidth 32
    ∃ t : State, exec (.ldb b ig) s = .next t ∧
      t = { s with
        pos := BitVec.ofNat 36 (min (p + 1) (2 ^ 36 - 1)), countSr := if p < 4 then c else s.countSr,
        declCount := if p = 3 then c else s.declCount,
        len := if p = 3 then BitVec.ofNat 32 (min c.toNat s.cfg.dataCap) else s.len,
        trunc := if p = 3 then decide (s.cfg.dataCap < c.toNat) else s.trunc,
        wordSr := if 4 ≤ p ∧ k < s.len.toNat then w else s.wordSr,
        trailing := if 4 ≤ p ∧ s.len.toNat ≤ k ∧ s.declCount.toNat ≤ k then true else s.trailing,
        sample := t.sample, busReady := true, busErr := false, busRdata := 0 } ∧
      ∀ j : Nat, Mem.read t.sample j =
        if 4 ≤ p ∧ k < s.len.toNat ∧ (p - 4) % 4 = 3 ∧ j = k then w else Mem.read s.sample j

/-- R97: LOAD_COMMIT in LOAD reports the first check that holds, or enters LOADED; elsewhere CMD_ERR only. -/
def Obligations.CommitChecksInOrder : Prop :=
  ∀ s : State,
    let fatal := fun (code : BitVec 4) => { s with
      life := .fatal, errCode := code, errInfo := BitVec.ofNat 32 (min s.pos.toNat (2 ^ 32 - 1)), busReady := true,
      busErr := false, busRdata := 0 }
    decode (.busw (buswWord 0xF 0x04 1)) = .loadCommit ∧
    exec .loadCommit s = .next (
      if s.life ≠ .load then { s with cmdErr := true, busReady := true, busErr := false, busRdata := 0 }
      else if s.pos.toNat < 4 then fatal 1
      else if s.declCount = 0 then fatal 2
      else if s.pos.toNat < 4 + 4 * s.len.toNat then fatal 3
      else if s.trailing = true then fatal 4
      else { s with life := .loaded, busReady := true, busErr := false, busRdata := 0 })

/-- R98: after the four header bytes LEN is `min(count, DATA_CAP)` and TRUNC tells of the cut, for every parameter setting. -/
def Obligations.HeaderTruncatesToCapacity : Prop :=
  ∀ (p : Params) (c : Word), p.Valid →
    ∃ t : State, runInstrs (ldw c) (State.resetWith p) = .next t ∧ t.declCount = c ∧ t.pos = 4 ∧
      t.len.toNat = min c.toNat p.dataCap ∧ t.trunc = decide (p.dataCap < c.toNat) ∧ t.life = .load

/-- R101: loading a waveform of `n` samples, `1 <= n <= DATA_CAP`, and committing it ends in LOADED with every sample at its
index, bit for bit. -/
def Obligations.WaveformRoundTrip : Prop :=
  ∀ (p : Params) (xs : List Word), p.Valid → 1 ≤ xs.length → xs.length ≤ p.dataCap →
    ∃ t : State, runInstrs (ldwave xs ++ [.loadCommit]) (State.resetWith p) = .next t ∧ t.life = .loaded ∧
      t.len.toNat = xs.length ∧ t.trunc = false ∧ t.cmdErr = false ∧
      ∀ (k : Nat) (h : k < xs.length), Mem.read t.sample k = xs[k] ∧
        ({ t with tblAddr := BitVec.ofNat 32 k }).readValue .sampleData = xs[k]

/-! ### Scaler -/

/-- R104: SCALE starts the scaler in LOADED; otherwise CMD_ERR and nothing else. -/
def Obligations.ScaleCommand : Prop :=
  decode (.busw (buswWord 0xF 0x04 2)) = .scale ∧
  ∀ s : State, exec .scale s = .next (if s.life = .loaded
    then { s with life := .scaling, busReady := true, busErr := false, busRdata := 0 }
    else { s with cmdErr := true, busReady := true, busErr := false, busRdata := 0 })

/-- R106: `cfg_ok` accepts exactly the BIN32 patterns that are numbers in [0, 1]. -/
def Obligations.ConfigCheckIsTheUnitInterval : Prop :=
  ∀ w : Word, cfgOk w = true ↔
    isFinite32 w = true ∧ 0 ≤ (F64.ofBin32 w).units ∧ (F64.ofBin32 w).units ≤ (F64.ofNat 1).units

/-- R18: `+.`, `-.`, `*.` and `/.` are the rounding of the exact sum, difference, product and quotient (in units of 2^-1074);
what the rounding of `n / d` units gives is a binary64 value (53 significant bits), no such value is nearer, and on a tie the
even one is taken. Overflow is left out: R114 keeps it away (log 8). -/
def Obligations.RoundingIsNearestTiesToEven : Prop :=
  (∀ x y : F64, x.add y = F64.round (x.units + y.units) 1 ∧ x.sub y = F64.round (x.units - y.units) 1 ∧
    x.mul y = F64.round (x.units * y.units) (2 ^ 1074) ∧
    (0 < y.units → x.div y = F64.round (x.units * 2 ^ 1074) y.units.toNat) ∧
    (y.units < 0 → x.div y = F64.round (-(x.units * 2 ^ 1074)) (-y.units).toNat)) ∧
  ∀ (n : Int) (d : Nat), 0 < d →
    (∃ m e : Nat, m ≤ 2 ^ 53 ∧ (F64.round n d).units.natAbs = m * 2 ^ e) ∧
    ∀ (m e : Nat) (neg : Bool), m < 2 ^ 53 →
      let y : Int := if neg then -(m * 2 ^ e : Nat) else (m * 2 ^ e : Nat)
      (n - (F64.round n d).units * d).natAbs ≤ (n - y * d).natAbs ∧
      ((n - (F64.round n d).units * d).natAbs = (n - y * d).natAbs → y ≠ (F64.round n d).units →
        ∃ k f : Nat, k % 2 = 0 ∧ k ≤ 2 ^ 53 ∧ (F64.round n d).units.natAbs = k * 2 ^ f ∧
          2 * (n - (F64.round n d).units * d).natAbs = d * 2 ^ f)

/-- R105, R108, R110 to R113: with a valid configuration, finite samples and at least two different values, the scaler step
writes `clamp(trunc(shift +. scale *. x_i), 0, 65535)` at every index below LEN and changes nothing else but `lut_valid`
and STATE. -/
def Obligations.ScalerBuildsTheLut : Prop :=
  ∀ (s : State) (mn mx : F64), s.life = .scaling → cfgOk s.maxBright = true → cfgOk s.dynRange = true →
    s.len.toNat ≤ s.cfg.dataCap → Mem.wf s.lut = true →
    (∀ i < s.len.toNat, isFinite32 (s.sample.read i) = true) →
    (∃ i < s.len.toNat, F64.ofBin32 (s.sample.read i) = mn) → (∃ i < s.len.toNat, F64.ofBin32 (s.sample.read i) = mx) →
    (∀ i < s.len.toNat, mn.units ≤ (F64.ofBin32 (s.sample.read i)).units ∧
      (F64.ofBin32 (s.sample.read i)).units ≤ mx.units) → mn ≠ mx →
    let mb := F64.ofBin32 s.maxBright
    let dr := F64.ofBin32 s.dynRange
    let maxD := mb.mul (F64.ofNat 65535)
    let minD := maxD.mul dr
    let scale := (maxD.sub minD).div (mx.sub mn)
    let shift := match s.cfg.shiftForm with
      | .floor => minD.sub (mn.mul scale)
      | .reference => (maxD.mul ((F64.ofNat 1).sub dr)).sub (mn.mul scale)
    ∃ t : State, exec .scalerStep s = .next t ∧
      t = { s with lut := t.lut, lutValid := true, life := .scaled } ∧
      (∀ i < s.len.toNat, ((t.lut.read i).toNat : Int) =
        min (max (shift.add (scale.mul (F64.ofBin32 (s.sample.read i)))).trunc 0) 65535) ∧
      (∀ i, s.len.toNat ≤ i → t.lut.read i = s.lut.read i)

/-- R106, R107, R109, R159: the scaler's checks in their order, each entering FATAL with its code and information word and
writing no LUT entry. -/
def Obligations.ScalerFatalChecksInOrder : Prop :=
  ∀ s : State, s.life = .scaling → 1 ≤ s.len.toNat → s.len.toNat ≤ s.cfg.dataCap →
    let fatal := fun (code : BitVec 4) (info : Word) => { s with life := .fatal, errCode := code, errInfo := info }
    (cfgOk s.maxBright = false → cfgOk s.dynRange = true → exec .scalerStep s = .next (fatal 5 1)) ∧
    (cfgOk s.maxBright = true → cfgOk s.dynRange = false → exec .scalerStep s = .next (fatal 5 2)) ∧
    (cfgOk s.maxBright = false → cfgOk s.dynRange = false → exec .scalerStep s = .next (fatal 5 3)) ∧
    (cfgOk s.maxBright = true → cfgOk s.dynRange = true →
      (∀ i, i < s.len.toNat → isFinite32 (s.sample.read i) = false →
        (∀ j < i, isFinite32 (s.sample.read j) = true) → exec .scalerStep s = .next (fatal 6 (BitVec.ofNat 32 i))) ∧
      ((∀ i < s.len.toNat, isFinite32 (s.sample.read i) = true) →
        (∀ i < s.len.toNat, F64.ofBin32 (s.sample.read i) = F64.ofBin32 (s.sample.read 0)) →
        exec .scalerStep s = .next (fatal 7 s.len)))

/-- R115: the LUT preserves the order of the samples. -/
def Obligations.LutPreservesSampleOrder : Prop :=
  ∀ s t : State, exec .scalerStep s = .next t → s.life = .scaling → t.life = .scaled → Mem.wf s.lut = true →
    ∀ i j : Nat, i < s.len.toNat → j < s.len.toNat →
      (F64.ofBin32 (s.sample.read i)).units ≤ (F64.ofBin32 (s.sample.read j)).units →
      (t.lut.read i).toNat ≤ (t.lut.read j).toNat

/-- R110 to R114: every intermediate of the scaler step stays far inside the binary64 range, so no operation overflows; this
is what lets values be held without infinities (log 8). In order: `x_i`, `max_desired` (exact, R110), `min_desired`,
`observed_range`, `desired_range`, `scale`, `min_val *. scale`, `scale *. x_i`, the two further intermediates of REFERENCE,
`shift` and `v_i`. One is `F64.one` units. -/
def Obligations.ScalerIntermediatesStayFinite : Prop :=
  ∀ (form : ShiftForm) (mb dr : Word) (mn mx x : Word), cfgOk mb = true → cfgOk dr = true →
    isFinite32 mn = true → isFinite32 mx = true → isFinite32 x = true →
    (F64.ofBin32 mn).units < (F64.ofBin32 mx).units →
    (F64.ofBin32 mn).units ≤ (F64.ofBin32 x).units → (F64.ofBin32 x).units ≤ (F64.ofBin32 mx).units →
    let maxD := maxDesired mb
    let minD := minDesired mb dr
    let observed := (F64.ofBin32 mx).sub (F64.ofBin32 mn)
    let desired := maxD.sub minD
    let scale := scaleFactor mb dr (F64.ofBin32 mn) (F64.ofBin32 mx)
    let oneMinusDr := (F64.ofNat 1).sub (F64.ofBin32 dr)
    let shift := shiftTerm form mb dr (F64.ofBin32 mn) scale
    (F64.ofBin32 x).units.natAbs < 2 ^ 128 * F64.one ∧
    (maxD.units = (F64.ofBin32 mb).units * 65535 ∧ maxD.units ≤ (65535 * F64.one : Nat)) ∧
    (0 ≤ minD.units ∧ minD.units ≤ maxD.units) ∧
    (2 ^ 925 ≤ observed.units ∧ observed.units ≤ (2 ^ 129 * F64.one : Nat)) ∧
    (0 ≤ desired.units ∧ desired.units ≤ (65535 * F64.one : Nat)) ∧
    (0 ≤ scale.units ∧ scale.units < (2 ^ 166 * F64.one : Nat)) ∧
    ((F64.ofBin32 mn).mul scale).units.natAbs < 2 ^ 294 * F64.one ∧
    (scale.mul (F64.ofBin32 x)).units.natAbs < 2 ^ 294 * F64.one ∧
    (0 ≤ oneMinusDr.units ∧ oneMinusDr.units ≤ F64.one) ∧
    (0 ≤ (maxD.mul oneMinusDr).units ∧ (maxD.mul oneMinusDr).units ≤ (65535 * F64.one : Nat)) ∧
    shift.units.natAbs < 2 ^ 296 * F64.one ∧
    (scaledValue shift scale (F64.ofBin32 x)).units.natAbs < 2 ^ 296 * F64.one

/-- R105, the document's scaling determinism: two states with the same samples, LEN, configuration and parameters reach the
same lifecycle state and, where it is SCALED, the same LUT entries, whatever else differs. -/
def Obligations.ScalerIsAPureFunction : Prop :=
  ∀ s s' t t' : State, s.life = .scaling → s'.life = .scaling → s'.cfg = s.cfg → s'.len = s.len →
    s'.maxBright = s.maxBright → s'.dynRange = s.dynRange →
    (∀ i < s.len.toNat, s'.sample.read i = s.sample.read i) → Mem.wf s.lut = true → Mem.wf s'.lut = true →
    exec .scalerStep s = .next t → exec .scalerStep s' = .next t' →
    t'.life = t.life ∧ (t.life = .scaled → ∀ i < s.len.toNat, t'.lut.read i = t.lut.read i) ∧
    (t.life = .fatal → t'.errCode = t.errCode ∧ t'.errInfo = t.errInfo)

/-! ### Player and timers -/

/-- R118: START in SCALED writes LUT entry 0 to both channels and enters RUNNING; with `drv_fault = 1` it then enters FATAL
with HW_WRITE, the writes standing. Elsewhere CMD_ERR only. -/
def Obligations.StartCommand : Prop :=
  decode (.busw (buswWord 0xF 0x04 3)) = .start ∧
  ∀ s : State, 1 ≤ s.cfg.dataCap →
    exec .start s = .next (
      if s.life ≠ .scaled then { s with cmdErr := true, busReady := true, busErr := false, busRdata := 0 }
      else { s with
        life := if s.inp.drvFault then .fatal else .running, timeIndex := 0, pwm0Duty := s.lut.read 0,
        pwm1Duty := s.lut.read 0, tickCount := s.tickCount + 1, tb := 0, tickPend := false, cp := 0,
        errCode := if s.inp.drvFault then 8 else s.errCode, errInfo := if s.inp.drvFault then 0 else s.errInfo,
        busReady := true, busErr := false, busRdata := 0 })

/-- R119: the tick step advances modulo LEN and writes that entry to both channels; with `drv_fault = 1` it then enters FATAL
with HW_WRITE, the writes standing. -/
def Obligations.TickStep : Prop :=
  ∀ s : State, s.life = .running → s.tickPend = true → 1 ≤ s.len.toNat → s.len.toNat ≤ s.cfg.dataCap →
    let i := (s.timeIndex.toNat + 1) % s.len.toNat
    exec .tickStep s = .next { s with
      tickPend := false, timeIndex := BitVec.ofNat 32 i, pwm0Duty := s.lut.read i, pwm1Duty := s.lut.read i,
      tickCount := s.tickCount + 1, life := if s.inp.drvFault then .fatal else .running,
      errCode := if s.inp.drvFault then 8 else s.errCode, errInfo := if s.inp.drvFault then 0 else s.errInfo }

/-- R120, R121 (untimed): in RUNNING a tick can fall due at any moment; PWM_RELOAD loads both active duties in every state. -/
def Obligations.TickDueAndPwmReload : Prop :=
  ∀ s : State,
    (s.life = .running → exec .tickDue s = .next { s with tickPend := true }) ∧
    exec .pwmReload s = .next { s with active0 := s.pwm0Duty, active1 := s.pwm1Duty }

/-- R122: after START and `k` ticks without a driver fault, TIME_INDEX is `k mod LEN`, both channels hold that entry, and
TICK_COUNT has counted every write. -/
def Obligations.PlaybackWrapsAround : Prop :=
  ∀ (s : State) (k : Nat), Inv s → s.life = .scaled → s.inp.drvFault = false →
    ∃ t : State, runInstrs (.start :: (List.replicate k tickProgram).flatten) s = .next t ∧
      t.life = .running ∧ t.timeIndex.toNat = k % s.len.toNat ∧ t.pwm0Duty = s.lut.read (k % s.len.toNat) ∧
      t.pwm1Duty = s.lut.read (k % s.len.toNat) ∧ t.tickCount = s.tickCount + 1 + BitVec.ofNat 32 k ∧
      t.lut = s.lut ∧ t.relay = s.relay

/-- R120, R121, R130: one clock cycle of the timed block, all of it. The model's choices: that a clock cycle is a step of its
own (log 10), and that it ends `bus_ready` and keeps `bus_err` and `bus_rdata` (log 7). -/
def Obligations.ClockCycle : Prop :=
  ∀ s : State,
    let run := s.life = .running
    let due := run ∧ s.tb.toNat = s.cfg.tickCycles - 1
    let wrap := s.presc.toNat = s.cfg.pwmPrescale - 1
    let period := wrap ∧ s.pwmCnt = 65534
    clockCycle s = { s with
      tb := if due then 0 else if run then s.tb + 1 else s.tb,
      tickPend := if due then true else s.tickPend,
      cp := if run then (if s.cp ≠ 0 then s.cp - 1 else if s.linePend then s.cp else BitVec.ofNat 32 s.cfg.cmdIdleCycles)
        else s.cp,
      presc := if wrap then 0 else s.presc + 1,
      pwmCnt := if period then 0 else if wrap then s.pwmCnt + 1 else s.pwmCnt,
      active0 := if period then s.pwm0Duty else s.active0,
      active1 := if period then s.pwm1Duty else s.active1,
      busReady := false }

/-- R120: in RUNNING, from `tb = 0`, the tick falls due after exactly TICK_CYCLES clock cycles. -/
def Obligations.TickFallsDueAfterTickCycles : Prop :=
  ∀ s : State, s.cfg.Valid → s.life = .running → s.tb = 0 → s.tickPend = false →
    (∀ n < s.cfg.tickCycles, (clockCycle^[n] s).tb.toNat = n ∧ (clockCycle^[n] s).tickPend = false) ∧
    (clockCycle^[s.cfg.tickCycles] s).tb = 0 ∧ (clockCycle^[s.cfg.tickCycles] s).tickPend = true

/-- R130: a line that is waiting makes the dispatch step due at most CMD_IDLE_CYCLES cycles later; the poll itself is the next
cycle (90_conflicts.md C10). -/
def Obligations.WaitingLineIsPolledInTime : Prop :=
  ∀ s : State, s.life = .running → s.linePend = true → s.cp.toNat ≤ s.cfg.cmdIdleCycles →
    ∃ n ≤ s.cfg.cmdIdleCycles, (clockCycle^[n] s).dispatchDue = true

/-- R121: over the 65535 counter values a channel is high for exactly as many as its active duty. -/
def Obligations.PwmHighTimeIsTheDuty : Prop :=
  ∀ s : State,
    ((List.range 65535).filter fun c => ({ s with pwmCnt := BitVec.ofNat 16 c }).pwmOut0).length = s.active0.toNat ∧
    ((List.range 65535).filter fun c => ({ s with pwmCnt := BitVec.ofNat 16 c }).pwmOut1).length = s.active1.toNat

/-- R120, R121: what a clock cycle does to the state the untimed model sees, untimed steps do too. The timers and
`bus_ready` (log 7, log 10) are left out of the comparison. -/
def Obligations.TimedCycleIsUntimedSteps : Prop :=
  ∀ s : State, ∃ (is : List Instr) (t : State),
    is ∈ [[], [Instr.tickDue], [Instr.pwmReload], [Instr.tickDue, Instr.pwmReload]] ∧ runInstrs is s = .next t ∧
    { t with tb := 0, cp := 0, presc := 0, pwmCnt := 0, busReady := false } =
      { clockCycle s with tb := 0, cp := 0, presc := 0, pwmCnt := 0, busReady := false }

/-! ### Command task -/

/-- R125: a byte is taken only in RUNNING with no line waiting; LF completes the line, content is kept while there is room,
and the rest marks the line overlong. -/
def Obligations.RxAccept : Prop :=
  ∀ (s : State) (b : Byte), Mem.wf (w := 8) s.lineBuf = true →
    let ready := s.life = .running ∧ s.linePend = false
    let room := s.lineLen.toNat < s.cfg.lineMax
    ∃ t : State, exec (.rxAccept b) s = .next t ∧
      t = { s with
        linePend := if ready ∧ b = 0x0A then true else s.linePend,
        lineLen := if ready ∧ b ≠ 0x0A ∧ room then s.lineLen + 1 else s.lineLen,
        lineOvf := if ready ∧ b ≠ 0x0A ∧ ¬room then true else s.lineOvf,
        lineBuf := t.lineBuf } ∧
      ∀ j : Nat, Mem.read (w := 8) t.lineBuf j =
        if ready ∧ b ≠ 0x0A ∧ room ∧ j = s.lineLen.toNat then b else Mem.read (w := 8) s.lineBuf j

/-- R126: the dispatch step decodes the kept bytes (R89), switches the relay, queues the whole echo (R90), counts the line,
frees the buffer, and samples `drv_fault` only after a relay write. -/
def Obligations.DispatchStep : Prop :=
  ∀ s : State, s.life = .running → s.linePend = true → s.lineLen.toNat ≤ s.cfg.lineMax →
    let kept := (List.range s.lineLen.toNat).map (Mem.read (w := 8) s.lineBuf)
    let t := strip kept
    let on := s.lineOvf = false ∧ t = [0x6F, 0x6E]
    let off := s.lineOvf = false ∧ t = [0x6F, 0x66, 0x66]
    let bad := (on ∨ off) ∧ s.inp.drvFault = true
    16 + t.length ≤ s.txFree →
      exec .dispatch s = .next { s with
        relay := if on then true else if off then false else s.relay,
        txq := s.txq ++ [0x72, 0x65, 0x63, 0x65, 0x69, 0x76, 0x65, 0x64, 0x20, 0x64, 0x61, 0x74, 0x61, 0x3A, 0x20] ++ t ++
          [0x0D],
        lastCmd := if on then 1 else if off then 2 else 3, lineCount := s.lineCount + 1,
        rxOverlong := if s.lineOvf then true else s.rxOverlong, lineLen := 0, lineOvf := false, linePend := false, cp := 0,
        life := if bad then .fatal else .running, errCode := if bad then 8 else s.errCode,
        errInfo := if bad then 1 else s.errInfo }

/-- R126 to R129: the dispatch step is the row its line decodes to. -/
def Obligations.DispatchIsOneOfTheLineRows : Prop :=
  ∀ s : State, s.life = .running → s.linePend = true → s.lineLen.toNat ≤ s.cfg.lineMax →
    exec .dispatch s = exec (decode (.line (lineBytes s.lineBuf s.lineLen.toNat) s.lineOvf)) s

/-- R127, R128: a line that trims to `on` or `off` and is not overlong sets or clears the relay, echoes itself and frees the
buffer; `drv_fault = 1` then enters FATAL. -/
def Obligations.OnAndOffLines : Prop :=
  (∀ kept : List Byte, (strip kept = [0x6F, 0x6E] → decode (.line kept false) = .lineOn) ∧
    (strip kept = [0x6F, 0x66, 0x66] → decode (.line kept false) = .lineOff)) ∧
  ∀ s : State, s.life = .running → s.linePend = true →
    (18 ≤ s.txFree → exec .lineOn s = .next { s with
      relay := true, txq := s.txq ++ echo [0x6F, 0x6E], lastCmd := 1, lineCount := s.lineCount + 1, lineLen := 0,
      lineOvf := false, linePend := false, cp := 0, life := if s.inp.drvFault then .fatal else .running,
      errCode := if s.inp.drvFault then 8 else s.errCode, errInfo := if s.inp.drvFault then 1 else s.errInfo }) ∧
    (19 ≤ s.txFree → exec .lineOff s = .next { s with
      relay := false, txq := s.txq ++ echo [0x6F, 0x66, 0x66], lastCmd := 2, lineCount := s.lineCount + 1, lineLen := 0,
      lineOvf := false, linePend := false, cp := 0, life := if s.inp.drvFault then .fatal else .running,
      errCode := if s.inp.drvFault then 8 else s.errCode, errInfo := if s.inp.drvFault then 1 else s.errInfo })

/-- R129: every other line, and every overlong one, leaves the relay and does not sample `drv_fault`; it is echoed and
counted. -/
def Obligations.OtherLines : Prop :=
  (∀ (kept : List Byte) (ovf : Bool), ovf = true ∨ (strip kept ≠ [0x6F, 0x6E] ∧ strip kept ≠ [0x6F, 0x66, 0x66]) →
    decode (.line kept ovf) = .lineOther (strip kept) ovf) ∧
  ∀ (s : State) (t : List Byte) (ovf : Bool), s.life = .running → s.linePend = true → 16 + t.length ≤ s.txFree →
    exec (.lineOther t ovf) s = .next { s with
      txq := s.txq ++ echo t, lastCmd := 3, lineCount := s.lineCount + 1, rxOverlong := s.rxOverlong || ovf, lineLen := 0,
      lineOvf := false, linePend := false, cp := 0 }

/-- A step whose guard (R161, R105, R119, R120, R125, R126, R131) is false changes nothing. The guards are the spec's; that a
disabled step may be scheduled and then does nothing is DEDUCED (log 6). -/
def Obligations.DisabledStepsChangeNothing : Prop :=
  ∀ (s : State) (b : Byte) (t : List Byte) (ovf : Bool),
    (s.life ≠ .scaling → exec .scalerStep s = .next s) ∧ (s.life ≠ .running → exec .tickDue s = .next s) ∧
    (¬(s.life = .running ∧ s.tickPend = true) → exec .tickStep s = .next s) ∧
    (¬(s.life = .running ∧ s.linePend = false) → exec (.rxAccept b) s = .next s) ∧
    (s.txq = [] ∨ s.inp.txReady = false → exec .txDepart s = .next s) ∧
    (¬(s.life = .running ∧ s.linePend = true) →
      exec .dispatch s = .next s ∧ exec .lineOn s = .next s ∧ exec .lineOff s = .next s ∧
      exec (.lineOther t ovf) s = .next s) ∧
    (s.lineLen.toNat ≤ s.cfg.lineMax →
      s.txFree < 16 + (strip ((List.range s.lineLen.toNat).map (Mem.read (w := 8) s.lineBuf))).length →
      exec .dispatch s = .next s) ∧
    (s.txFree < 18 → exec .lineOn s = .next s) ∧ (s.txFree < 19 → exec .lineOff s = .next s) ∧
    (s.txFree < 16 + t.length → exec (.lineOther t ovf) s = .next s)

/-- R131: while the queue holds a byte its head is on `tx_data`; when the receiver is ready it leaves, in every lifecycle
state; TX_EMPTY then tells whether the queue is empty. -/
def Obligations.TxDepart : Prop :=
  ∀ (s : State) (b : Byte) (q : List Byte), s.txq = b :: q →
    s.txData = b ∧ (s.txValidOut = true ↔ s.inp.rst = false) ∧
    (s.inp.txReady = true → exec .txDepart s = .next { s with txq := q } ∧
      (({ s with txq := q }).txEmpty = true ↔ q = []))

/-- R133, R134: lines received one after the other, each dispatched and its echo sent, leave the relay at the last `on` or
`off` among them, and each is counted once; PWM0_DUTY and TIME_INDEX stay. Lines may be longer than LINE_MAX (R125). Each line
is given TX_DEPTH TX_DEPART steps, and those that find the queue empty change nothing by the model's choice (log 6). -/
def Obligations.LinesSetTheRelay : Prop :=
  ∀ (lines : List (List Byte)) (s : State), s.cfg.Valid → Mem.wf (w := 8) s.lineBuf = true →
    s.life = .running → s.lineLen = 0 → s.lineOvf = false → s.linePend = false → s.txq = [] →
    s.inp.drvFault = false → s.inp.txReady = true → (∀ l ∈ lines, lfByte ∉ l) →
    ∃ t : State, runInstrs (lines.flatMap fun l => lineProgram l s.cfg.txDepth) s = .next t ∧
      t.relay = lines.foldl (fun r l =>
        match (decodeCommand (l.take s.cfg.lineMax) (decide (s.cfg.lineMax < l.length))).1 with
        | .turnOn => true
        | .turnOff => false
        | .unrecognized => r) s.relay ∧
      t.lineCount = s.lineCount + BitVec.ofNat 32 lines.length ∧ t.life = .running ∧ t.txq = [] ∧ t.linePend = false ∧
      t.pwm0Duty = s.pwm0Duty ∧ t.timeIndex = s.timeIndex

/-- R75: the tick step and the dispatch step write disjoint state; without a driver fault their order does not matter. -/
def Obligations.TickAndDispatchCommute : Prop :=
  ∀ s : State, Inv s → s.inp.drvFault = false →
    ∃ t : State, runInstrs [.tickStep, .dispatch] s = .next t ∧ runInstrs [.dispatch, .tickStep] s = .next t

/-! ### Fatal errors, reset, whole-machine rules -/

/-- R156, R150: fatal entry writes STATE, ERR_CODE (1 to 8 by cause) and ERR_INFO, and nothing else. -/
def Obligations.FatalEntry : Prop :=
  ∀ (s : State) (info : Word),
    let f := fun (code : BitVec 4) => { s with life := .fatal, errCode := code, errInfo := info }
    enterFatal .fmtShortHeader info s = f 1 ∧ enterFatal .fmtEmpty info s = f 2 ∧
    enterFatal .fmtShortPayload info s = f 3 ∧ enterFatal .fmtTrailing info s = f 4 ∧ enterFatal .cfgRange info s = f 5 ∧
    enterFatal .nonfiniteSample info s = f 6 ∧ enterFatal .degenerate info s = f 7 ∧ enterFatal .hwWrite info s = f 8

/-- R156, R157, R158: in FATAL, whatever turn comes, without `rst` the block stays in FATAL with the first cause; the relay and
the duties hold; the counters, the line receiver, the loader, the memories and the configuration do not move. -/
def Obligations.FatalIsLeftOnlyByReset : Prop :=
  ∀ s t : State, s.life = .fatal → s.nextTurn.inputs.rst = false → step s = .next t →
    t.life = .fatal ∧ t.errCode = s.errCode ∧ t.errInfo = s.errInfo ∧ t.relay = s.relay ∧ t.pwm0Duty = s.pwm0Duty ∧
    t.pwm1Duty = s.pwm1Duty ∧ t.timeIndex = s.timeIndex ∧ t.tickCount = s.tickCount ∧ t.lineCount = s.lineCount ∧
    t.lastCmd = s.lastCmd ∧ t.lineBuf = s.lineBuf ∧ t.lineLen = s.lineLen ∧ t.lineOvf = s.lineOvf ∧
    t.linePend = s.linePend ∧ t.pos = s.pos ∧ t.countSr = s.countSr ∧ t.wordSr = s.wordSr ∧ t.trailing = s.trailing ∧
    t.declCount = s.declCount ∧ t.len = s.len ∧ t.trunc = s.trunc ∧
    t.sample = s.sample ∧ t.lut = s.lut ∧ t.lutValid = s.lutValid ∧ t.maxBright = s.maxBright ∧ t.dynRange = s.dynRange

/-- R24, R124: the only lifecycle transitions of a step without `rst`; RUNNING is left only for FATAL. -/
def Obligations.LifecycleTransitions : Prop :=
  ∀ s t : State, step s = .next t → s.nextTurn.inputs.rst = false → t.life ≠ s.life →
    (s.life, t.life) ∈ [(.load, .loaded), (.load, .fatal), (.loaded, .scaling), (.scaling, .scaled), (.scaling, .fatal),
      (.scaled, .running), (.scaled, .fatal), (Lifecycle.running, Lifecycle.fatal)]

/-- R70, R123, R132: each output and memory has one owner; any other operation leaves it. -/
def Obligations.OwnershipByOperation : Prop :=
  ∀ (i : Instr) (s t : State), exec i s = .next t → i ≠ .reset →
    (i ≠ .dispatch → i ≠ .lineOn → i ≠ .lineOff → t.relay = s.relay) ∧
    (i ≠ .start → i ≠ .tickStep →
      t.pwm0Duty = s.pwm0Duty ∧ t.pwm1Duty = s.pwm1Duty ∧ t.timeIndex = s.timeIndex ∧ t.tickCount = s.tickCount) ∧
    ((∀ b ig, i ≠ .ldb b ig) ∨ s.life ≠ .load → t.sample = s.sample ∧ t.pos = s.pos ∧ t.len = s.len) ∧
    (i ≠ .scalerStep → t.lut = s.lut ∧ t.lutValid = s.lutValid) ∧ t.cfg = s.cfg

/-- R174: what RESET leaves, register by register and port by port. The memories and `line_buf` are unspecified there and not
stated; CAP, PARAMS and TICK_CYCLES are constants. -/
def Obligations.ResetValues : Prop :=
  ∀ s : State, ∃ t : State, exec .reset s = .next t ∧
    t.cfg = s.cfg ∧ t.readValue .id = 0x494E4631 ∧ t.readValue .status = 0x00000400 ∧ t.readValue .cmd = 0 ∧
    t.readValue .loadData = 0 ∧ t.readValue .loadPos = 0 ∧ t.errCode = 0 ∧ t.errInfo = 0 ∧ t.pos = 0 ∧ t.declCount = 0 ∧ t.len = 0 ∧
    t.maxBright = 0x3F800000 ∧ t.dynRange = 0 ∧ t.timeIndex = 0 ∧ t.pwm0Duty = 0 ∧ t.pwm1Duty = 0 ∧ t.tickCount = 0 ∧
    t.tblAddr = 0 ∧ t.lineCount = 0 ∧ t.lastCmd = 0 ∧ t.fatalIe = false ∧ t.lutValid = false ∧ t.countSr = 0 ∧
    t.wordSr = 0 ∧ t.trailing = false ∧ t.lineLen = 0 ∧ t.lineOvf = false ∧ t.linePend = false ∧ t.txq = [] ∧ t.tb = 0 ∧
    t.tickPend = false ∧ t.cp = 0 ∧ t.presc = 0 ∧ t.pwmCnt = 0 ∧ t.active0 = 0 ∧ t.active1 = 0 ∧
    t.pwmOut0 = false ∧ t.pwmOut1 = false ∧ t.relayOut = false ∧ t.irq = false ∧ t.rxReadyOut = false ∧
    t.txValidOut = false ∧ t.busReadyOut = false ∧ t.busErr = false ∧ t.busRdata = 0 ∧ t.txData = 0 ∧
    t.readValue .lutData = 0 ∧ t.readValue .sampleData = 0

/-- R61, R164, R173: the output ports. `irq` is the level FATAL and IRQ_EN bit 0, and writing the bit in FATAL raises or
drops it at once; `rst = 1` closes the handshakes. -/
def Obligations.OutputPorts : Prop :=
  ∀ (s : State) (v : Word), s.relayOut = s.relay ∧ (s.pwmOut0 = true ↔ s.pwmCnt.toNat < s.active0.toNat) ∧
    (s.pwmOut1 = true ↔ s.pwmCnt.toNat < s.active1.toNat) ∧
    (s.rxReadyOut = true ↔ s.inp.rst = false ∧ s.life = .running ∧ s.linePend = false) ∧
    (s.txValidOut = true ↔ s.inp.rst = false ∧ s.txq ≠ []) ∧
    (s.inp.rst = true → s.busReadyOut = false) ∧
    (s.irq = true ↔ s.life = .fatal ∧ s.fatalIe = true) ∧
    (s.life = .fatal → ∃ t : State, exec (.wrIrqEn v) s = .next t ∧ t.life = .fatal ∧ t.irq = v.getLsbD 0)

/-- The invariant holds after reset, for every valid setting of the parameters and for the one of `State.reset` (log 2). -/
def Obligations.ResetMeetsInv : Prop := (∀ p : Params, p.Valid → Inv (State.resetWith p)) ∧ Inv State.reset

/-- Every step keeps the invariant: canonical memories within their bounds (R51, R52, R55), LEN and TRUNC by the header
(R35, R36), a legal lifecycle with the LUT complete before playback (R24, R39, R53, R76), no error code outside FATAL
(R31, R32), both channels alike (R40, R74), timers, counter and queues in range (R55 to R59). -/
def Obligations.StepKeepsInv : Prop := ∀ s t : State, Inv s → step s = .next t → Inv t

/-- R78: "never indexes out of bounds": from a state that meets the invariant a step always answers a next state. The faults
that this rules out are the model's own, not the spec's (log 5). -/
def Obligations.NoStepFaultsUnderInv : Prop := ∀ s : State, Inv s → ∃ t : State, step s = .next t

/-- R163, bounded: SCALING ends as soon as the scaler has had its turn; a schedule that gives it a turn, as a weakly fair one
does (log 15), cannot hold the block in SCALING. -/
def Obligations.ScalingEndsWithTheScalersTurn : Prop :=
  ∀ (s : State) (k : Nat) (h : k < s.schedule.length), Inv s → s.life = .scaling →
    (s.schedule[k]).agent = .scaler → (s.schedule[k]).inputs.rst = false →
    ∃ (n : Nat) (t : State), n ≤ k + 1 ∧ runSteps n s = .next t ∧ t.life ≠ .scaling
end

