-- ==== Sys2Proof/Laws/Decode.lean ====
section
/-! SUPPORT. Lemmas about the register map, the fields of a bus word, the decoder's cases and `strip`. -/

namespace Sys2Proof.Laws

/-- An address is aligned exactly when its two low bits are 0 (R136). -/
theorem lowBits_eq_zero_iff (a : BitVec 8) : a.extractLsb' 0 2 = 0#2 ↔ a.toNat % 4 = 0 := by revert a; decide

/-- Exactly the unaligned offsets and those from 0x60 on are no register's (R26, R69). -/
theorem ofOffset_eq_none_iff (a : BitVec 8) : Reg.ofOffset a = none ↔ ¬(a.toNat % 4 = 0 ∧ a.toNat < 0x60) := by
  revert a; decide

/-- The register found at an offset is the one whose offset it is, and no other. -/
theorem ofOffset_eq_some_iff (a : BitVec 8) (r : Reg) : Reg.ofOffset a = some r ↔ r.offset = a := by
  constructor
  · intro h; simpa using List.find?_some h
  · rintro rfl; cases r <;> rfl

@[simp] theorem ofOffset_offset (r : Reg) : Reg.ofOffset r.offset = some r := (ofOffset_eq_some_iff _ _).2 rfl

/-- Every register's offset is aligned. -/
theorem offset_aligned (r : Reg) : r.offset.extractLsb' 0 2 = 0#2 := by cases r <;> rfl

/-- The bits of a bus word (R80). -/
theorem buswWord_getLsbD (wstrb : BitVec 4) (addr : BitVec 8) (wdata : Word) (i : Nat) :
    (buswWord wstrb addr wdata).getLsbD i =
      if i < 32 then wdata.getLsbD i else if i < 40 then addr.getLsbD (i - 32) else wstrb.getLsbD (i - 40) := by
  unfold buswWord
  erw [BitVec.getLsbD_append, BitVec.getLsbD_append]
  by_cases h : i < 32
  · simp [h]
  · by_cases h2 : i < 40
    · simp [h, h2, show i - 32 < 8 by omega]
    · simp [h, h2, show ¬i - 32 < 8 by omega, show i - 32 - 8 = i - 40 by omega]

@[simp] theorem buswWord_wstrb (wstrb : BitVec 4) (addr : BitVec 8) (wdata : Word) :
    (buswWord wstrb addr wdata).extractLsb' 40 4 = wstrb := by
  apply BitVec.eq_of_getLsbD_eq
  intro i hi
  simp [buswWord_getLsbD, hi, show ¬40 + i < 32 by omega]

@[simp] theorem buswWord_addr (wstrb : BitVec 4) (addr : BitVec 8) (wdata : Word) :
    (buswWord wstrb addr wdata).extractLsb' 32 8 = addr := by
  apply BitVec.eq_of_getLsbD_eq
  intro i hi
  simp [buswWord_getLsbD, hi, show 32 + i < 40 by omega]

@[simp] theorem buswWord_wdata (wstrb : BitVec 4) (addr : BitVec 8) (wdata : Word) :
    (buswWord wstrb addr wdata).extractLsb' 0 32 = wdata := by
  apply BitVec.eq_of_getLsbD_eq
  intro i hi
  simp [buswWord_getLsbD, hi]

/-- Every bus word is the word of its three fields. -/
theorem buswWord_fields (w : BitVec 44) :
    buswWord (w.extractLsb' 40 4) (w.extractLsb' 32 8) (w.extractLsb' 0 32) = w := by
  apply BitVec.eq_of_getLsbD_eq
  intro i hi
  rw [buswWord_getLsbD]
  by_cases h : i < 32
  · simp [h]
  · by_cases h2 : i < 40
    · simp [h, h2, show i - 32 < 8 by omega, show 32 + (i - 32) = i by omega]
    · simp [h, h2, show i - 40 < 4 by omega, show 40 + (i - 40) = i by omega]

/-- A bus word decodes as its fields do. -/
@[simp] theorem decode_buswWord (wstrb : BitVec 4) (addr : BitVec 8) (wdata : Word) :
    decode (.busw (buswWord wstrb addr wdata)) = decodeW wstrb addr wdata := by
  simp [decode]

/-- A full write of a register decodes to that register's row. -/
@[simp] theorem decode_fullWrite (r : Reg) (wdata : Word) : decode (fullWrite r wdata) = decodeRegWrite r wdata := by
  simp [fullWrite, decodeW, offset_aligned]

/-- Everything a write word can decode to (R91). -/
theorem decodeW_cases (wstrb : BitVec 4) (addr : BitVec 8) (wdata : Word) :
    (addr.toNat % 4 ≠ 0 ∧ decodeW wstrb addr wdata = .busMisalignedW wstrb addr wdata) ∨
    (addr.toNat % 4 = 0 ∧ wstrb ≠ 0xF#4 ∧ decodeW wstrb addr wdata = .busPartial wstrb addr wdata) ∨
    (addr.toNat % 4 = 0 ∧ wstrb = 0xF#4 ∧ 0x60 ≤ addr.toNat ∧ decodeW wstrb addr wdata = .busUnmappedW addr wdata) ∨
    ∃ r : Reg, addr = r.offset ∧ wstrb = 0xF#4 ∧ decodeW wstrb addr wdata = decodeRegWrite r wdata := by
  unfold decodeW
  by_cases h : addr.extractLsb' 0 2 = 0#2
  · have h4 := (lowBits_eq_zero_iff addr).1 h
    by_cases h2 : wstrb = 0xF#4
    · cases h3 : Reg.ofOffset addr with
      | none =>
        rw [ofOffset_eq_none_iff] at h3
        exact .inr (.inr (.inl ⟨h4, h2, by omega, by simp [h, h2]⟩))
      | some r => exact .inr (.inr (.inr ⟨r, ((ofOffset_eq_some_iff _ _).1 h3).symm, h2, by simp [h, h2]⟩))
    · exact .inr (.inl ⟨h4, h2, by simp [h, h2]⟩)
  · exact .inl ⟨by rwa [Ne, ← lowBits_eq_zero_iff], by simp [h]⟩

/-- Everything a read word can decode to (R91). -/
theorem decodeR_cases (addr : BitVec 8) :
    (addr.toNat % 4 ≠ 0 ∧ decodeR addr = .busMisalignedR addr) ∨
    (addr.toNat % 4 = 0 ∧ 0x60 ≤ addr.toNat ∧ decodeR addr = .busUnmappedR addr) ∨
    ∃ r : Reg, addr = r.offset ∧ decodeR addr = decodeRegRead r := by
  unfold decodeR
  by_cases h : addr.extractLsb' 0 2 = 0#2
  · have h4 := (lowBits_eq_zero_iff addr).1 h
    cases h3 : Reg.ofOffset addr with
    | none =>
      rw [ofOffset_eq_none_iff] at h3
      exact .inr (.inl ⟨h4, by omega, by simp [h]⟩)
    | some r => exact .inr (.inr ⟨r, ((ofOffset_eq_some_iff _ _).1 h3).symm, by simp [h]⟩)
  · exact .inl ⟨by rwa [Ne, ← lowBits_eq_zero_iff], by simp [h]⟩

/-- The byte LDB uses and the bits it ignores make up the written word (R96). -/
theorem loadData_fields (wdata : Word) : (wdata.extractLsb' 8 24 ++ wdata.extractLsb' 0 8 : BitVec 32) = wdata := by
  apply BitVec.eq_of_getLsbD_eq
  intro i hi
  erw [BitVec.getLsbD_append]
  by_cases h : i < 8
  · simp [h]
  · simp [h, show i - 8 < 24 by omega, show 8 + (i - 8) = i by omega]

/-- The fields of an LDB's word (R96). -/
theorem loadData_extract (ignored : BitVec 24) (b : Byte) :
    (ignored ++ b : BitVec 32).extractLsb' 0 8 = b ∧ (ignored ++ b : BitVec 32).extractLsb' 8 24 = ignored := by
  constructor <;>
  · apply BitVec.eq_of_getLsbD_eq
    intro i hi
    simp only [BitVec.getLsbD_extractLsb', hi, decide_true, Bool.true_and]
    erw [BitVec.getLsbD_append]
    simp [hi]

/-- A text without whitespace at its ends is left alone by `strip` (R21). -/
theorem strip_of_trimmed {t : List Byte} (h : trimmed t = true) : strip t = t := by
  unfold trimmed at h
  rw [Bool.and_eq_true] at h
  have key : ∀ l : List Byte, (l.head?.all fun b => !wsBytes.contains b) = true → l.dropWhile isWs = l := by
    intro l hl
    cases l with
    | nil => rfl
    | cons b l => exact List.dropWhile_cons_of_neg (by simpa [isWs] using hl)
  unfold strip
  rw [key t h.1, key t.reverse (by rw [List.head?_reverse]; exact h.2), List.reverse_reverse]

end Sys2Proof.Laws
end

