-- ==== Sys2Proof/Laws/F64.lean ====
section
/-! SUPPORT. Rounding to 53 significant bits: bounds, order, exactness, and the order laws of the operations (R18). -/

namespace Sys2Proof.Machine

/-- The significand before rounding has at most 53 bits. -/
theorem F64.significand_lt (q : Nat) : q / 2 ^ F64.ulpExp q < 2 ^ 53 := by
  unfold F64.ulpExp
  rw [Nat.div_lt_iff_lt_mul (by positivity), ← pow_add]
  exact lt_of_lt_of_le Nat.lt_log2_self (Nat.pow_le_pow_right (by norm_num) (by omega))

/-- With an exponent above 0 the significand has all of its 53 bits. -/
theorem F64.le_significand {q : Nat} (h : 0 < F64.ulpExp q) : 2 ^ 52 ≤ q / 2 ^ F64.ulpExp q := by
  have hq : q ≠ 0 := by rintro rfl; simp [F64.ulpExp] at h
  rw [Nat.le_div_iff_mul_le (by positivity), ← pow_add]
  unfold F64.ulpExp at *
  rw [show 52 + (q.log2 - 52) = q.log2 by omega]
  exact Nat.log2_self_le hq

/-- The exponent grows with the value. -/
theorem F64.ulpExp_mono {p q : Nat} (h : p ≤ q) : F64.ulpExp p ≤ F64.ulpExp q := by
  unfold F64.ulpExp
  have : p.log2 ≤ q.log2 := by
    rcases Nat.eq_zero_or_pos p with rfl | hp
    · simp
    · rw [Nat.le_log2 (by omega)]; exact le_trans (Nat.log2_self_le (by omega)) h
  omega

/-- The rounded value lies between the neighbours of the exact one. -/
theorem F64.roundNat_bounds (n d : Nat) :
    n / (d * 2 ^ F64.ulpExp (n / d)) * 2 ^ F64.ulpExp (n / d) ≤ F64.roundNat n d ∧
    F64.roundNat n d ≤ (n / (d * 2 ^ F64.ulpExp (n / d)) + 1) * 2 ^ F64.ulpExp (n / d) := by
  unfold F64.roundNat
  constructor <;> apply Nat.mul_le_mul_right <;> split <;> omega

/-- Rounding keeps the order of the exact values `n / d`. -/
theorem F64.roundNat_mono {n d n' d' : Nat} (hd : 0 < d) (hd' : 0 < d') (h : n * d' ≤ n' * d) :
    F64.roundNat n d ≤ F64.roundNat n' d' := by
  have hq : n / d ≤ n' / d' := by
    rw [Nat.le_div_iff_mul_le hd']
    apply Nat.le_of_mul_le_mul_right (c := d) _ hd
    calc n / d * d' * d = n / d * d * d' := by ring
      _ ≤ n * d' := Nat.mul_le_mul_right _ (Nat.div_mul_le_self n d)
      _ ≤ n' * d := h
  have he := F64.ulpExp_mono hq
  rcases Nat.lt_or_eq_of_le he with he | he
  · calc F64.roundNat n d ≤ _ := (F64.roundNat_bounds n d).2
      _ ≤ 2 ^ 53 * 2 ^ F64.ulpExp (n / d) := by
        apply Nat.mul_le_mul_right
        rw [← Nat.div_div_eq_div_mul]; exact F64.significand_lt _
      _ = 2 ^ 52 * 2 ^ (F64.ulpExp (n / d) + 1) := by ring
      _ ≤ 2 ^ 52 * 2 ^ F64.ulpExp (n' / d') := Nat.mul_le_mul_left _ (Nat.pow_le_pow_right (by norm_num) he)
      _ ≤ _ := by
        apply Nat.mul_le_mul_right _ (F64.le_significand (q := n' / d') (by omega))
      _ = n' / (d' * 2 ^ F64.ulpExp (n' / d')) * 2 ^ F64.ulpExp (n' / d') := by rw [Nat.div_div_eq_div_mul]
      _ ≤ _ := (F64.roundNat_bounds n' d').1
  · unfold F64.roundNat
    simp only
    rw [← he]
    apply Nat.mul_le_mul_right
    generalize hu : 2 ^ F64.ulpExp (n / d) = u
    have hu0 : 0 < u := by rw [← hu]; positivity
    have hm : n / (d * u) ≤ n' / (d' * u) := by
      rw [← Nat.div_div_eq_div_mul, ← Nat.div_div_eq_div_mul]; exact Nat.div_le_div_right hq
    rcases Nat.lt_or_eq_of_le hm with hm | hm
    · split <;> split <;> omega
    · rw [← hm]
      have e1 := Nat.div_add_mod n (d * u)
      have e2 := Nat.div_add_mod n' (d' * u)
      rw [← hm] at e2
      generalize n / (d * u) = m at *
      generalize n % (d * u) = r at *
      generalize n' % (d' * u) = r' at *
      have hr : r * d' ≤ r' * d := by subst e1 e2; nlinarith
      have hlt : d * u < 2 * r → d' * u < 2 * r' := by
        intro hh
        apply Nat.lt_of_mul_lt_mul_right (a := d)
        nlinarith
      have hle : d * u = 2 * r → d' * u ≤ 2 * r' := by
        intro hh
        apply Nat.le_of_mul_le_mul_right (c := d) _ hd
        nlinarith
      split
      · rename_i hc
        rw [if_pos]
        rcases hc with hc | hc
        · exact .inl (hlt hc)
        · rcases Nat.lt_or_eq_of_le (hle hc.1.symm) with h1 | h1
          · exact .inl h1
          · exact .inr ⟨h1.symm, hc.2⟩
      · split <;> omega

/-- A number of at most 53 significant bits is not changed by rounding. -/
theorem F64.roundNat_exact {m e : Nat} (hm : m ≤ 2 ^ 53) : F64.roundNat (m * 2 ^ e) 1 = m * 2 ^ e := by
  have key : 2 ^ F64.ulpExp (m * 2 ^ e) ∣ m * 2 ^ e := by
    rcases Nat.eq_zero_or_pos m with rfl | h0
    · simp
    rcases Nat.lt_or_eq_of_le hm with h | rfl
    · refine Dvd.dvd.mul_left (Nat.pow_dvd_pow 2 ?_) m
      unfold F64.ulpExp
      have : (m * 2 ^ e).log2 < 53 + e := by
        rw [Nat.log2_lt (by positivity), pow_add]
        exact Nat.mul_lt_mul_of_pos_right h (by positivity)
      omega
    · rw [← pow_add]
      refine Nat.pow_dvd_pow 2 ?_
      unfold F64.ulpExp
      rw [Nat.log2_two_pow]; omega
  unfold F64.roundNat
  simp only [Nat.div_one, Nat.one_mul, Nat.mod_eq_zero_of_dvd key]
  rw [if_neg, Nat.div_mul_cancel key]
  have : 0 < 2 ^ F64.ulpExp (m * 2 ^ e) := by positivity
  omega

@[simp] theorem F64.roundNat_zero (d : Nat) : F64.roundNat 0 d = 0 := by
  simp [F64.roundNat, F64.ulpExp]

/-- The values of the format: whole multiples of a power of two with at most 53 significant bits. -/
abbrev F64.IsRep (x : F64) : Prop := ∃ m e : Nat, m ≤ 2 ^ 53 ∧ x.units.natAbs = m * 2 ^ e

/-- What an operation answers is a value of the format. -/
theorem F64.round_isRep (n : Int) (d : Nat) : (F64.round n d).IsRep := by
  have h : ∃ m e : Nat, m ≤ 2 ^ 53 ∧ F64.roundNat n.natAbs d = m * 2 ^ e := by
    refine ⟨_, F64.ulpExp (n.natAbs / d), ?_, rfl⟩
    have := F64.significand_lt (n.natAbs / d)
    rw [Nat.div_div_eq_div_mul] at this
    split <;> omega
  obtain ⟨m, e, hm, h⟩ := h
  refine ⟨m, e, hm, ?_⟩
  unfold F64.round
  split <;> simp only [Int.natAbs_neg, Int.natAbs_natCast, h]

/-- A value of the format is not changed by rounding. -/
theorem F64.round_of_isRep {x : F64} (h : x.IsRep) : F64.round x.units 1 = x := by
  obtain ⟨m, e, hm, h⟩ := h
  cases x with
  | mk u =>
    unfold F64.round
    simp only at h ⊢
    rw [h, F64.roundNat_exact hm, ← h]
    split <;> congr 1 <;> omega

/-- Rounding keeps the order of the exact values `n / d`. -/
theorem F64.round_mono {n n' : Int} {d d' : Nat} (hd : 0 < d) (hd' : 0 < d') (h : n * d' ≤ n' * d) :
    (F64.round n d).units ≤ (F64.round n' d').units := by
  unfold F64.round
  simp only
  split
  · split
    · have : F64.roundNat n'.natAbs d' ≤ F64.roundNat n.natAbs d := by
        apply F64.roundNat_mono hd' hd
        zify
        rw [abs_of_neg ‹n < 0›, abs_of_neg ‹n' < 0›]
        linarith
      omega
    · omega
  · split
    · exfalso
      have : n' * d < 0 := mul_neg_of_neg_of_pos ‹_› (by exact_mod_cast hd)
      have : 0 ≤ n * d' := mul_nonneg (by omega) (by positivity)
      omega
    · have : F64.roundNat n.natAbs d ≤ F64.roundNat n'.natAbs d' := by
        apply F64.roundNat_mono hd hd'
        zify
        rw [abs_of_nonneg (by omega : 0 ≤ n), abs_of_nonneg (by omega : 0 ≤ n')]
        exact h
      omega

/-- An exact value of magnitude at most `m * 2^e`, a value of the format, rounds to one of at most that magnitude. -/
theorem F64.round_natAbs_le {n : Int} {d m e : Nat} (hd : 0 < d) (hm : m ≤ 2 ^ 53) (h : n.natAbs ≤ m * 2 ^ e * d) :
    (F64.round n d).units.natAbs ≤ m * 2 ^ e := by
  have hr : F64.roundNat n.natAbs d ≤ m * 2 ^ e := by
    have := F64.roundNat_mono (n := n.natAbs) (n' := m * 2 ^ e) (d' := 1) hd Nat.one_pos (by rwa [Nat.mul_one])
    rwa [F64.roundNat_exact hm] at this
  unfold F64.round
  simp only
  split <;> omega

/-- A common factor of an exact value `n * d / d` does not matter. -/
theorem F64.round_mul_self (n : Int) {d : Nat} (hd : 0 < d) : F64.round (n * d) d = F64.round n 1 := by
  have h : (F64.round (n * d) d).units = (F64.round n 1).units := by
    apply le_antisymm <;> apply F64.round_mono <;> simp [hd]
  cases h1 : F64.round (n * d) d
  cases h2 : F64.round n 1
  rw [h1, h2] at h
  exact congrArg F64.mk h

theorem F64.ofNat_units (n : Nat) : (F64.ofNat n).units = n * F64.one := rfl

theorem F64.one_pos : 0 < F64.one := by unfold F64.one; positivity

/-- A nonnegative exact value rounds to a nonnegative one. -/
theorem F64.round_nonneg {n : Int} (d : Nat) (h : 0 ≤ n) : 0 ≤ (F64.round n d).units := by
  unfold F64.round; simp only; split <;> omega

/-- Every BIN32 pattern is a value of the format, exactly (R18, R84). -/
theorem F64.ofBin32_isRep (w : Word) : (F64.ofBin32 w).IsRep := by
  have hf : (w.extractLsb' 0 23).toNat < 2 ^ 23 := (w.extractLsb' 0 23).isLt
  obtain ⟨m, e, hm, h⟩ : ∃ m e : Nat, m ≤ 2 ^ 53 ∧
      (if (w.extractLsb' 23 8).toNat = 0 then (w.extractLsb' 0 23).toNat * 2 ^ 925
        else (2 ^ 23 + (w.extractLsb' 0 23).toNat) * 2 ^ ((w.extractLsb' 23 8).toNat + 924)) = m * 2 ^ e := by
    split
    · exact ⟨(w.extractLsb' 0 23).toNat, 925, by omega, rfl⟩
    · exact ⟨2 ^ 23 + (w.extractLsb' 0 23).toNat, (w.extractLsb' 23 8).toNat + 924, by omega, rfl⟩
  refine ⟨m, e, hm, ?_⟩
  simp only [F64.ofBin32, h]
  split <;> simp only [Int.natAbs_neg, Int.natAbs_natCast]

/-- A number up to 2^53 is a value of the format. -/
theorem F64.ofNat_isRep {n : Nat} (h : n ≤ 2 ^ 53) : (F64.ofNat n).IsRep :=
  ⟨n, 1074, h, by rw [F64.ofNat_units, ← Nat.cast_mul, Int.natAbs_natCast]; rfl⟩

/-- Addition keeps the order of its second operand. -/
theorem F64.add_mono_right (x : F64) {y z : F64} (h : y.units ≤ z.units) : (x.add y).units ≤ (x.add z).units :=
  F64.round_mono Nat.one_pos Nat.one_pos (by omega)

/-- Multiplication by a nonnegative value keeps the order. -/
theorem F64.mul_mono_right {x y z : F64} (hx : 0 ≤ x.units) (h : y.units ≤ z.units) :
    (x.mul y).units ≤ (x.mul z).units :=
  F64.round_mono F64.one_pos F64.one_pos
    (mul_le_mul_of_nonneg_right (mul_le_mul_of_nonneg_left h hx) (by positivity))

/-- A difference of ordered values is not negative. -/
theorem F64.sub_nonneg {x y : F64} (h : y.units ≤ x.units) : 0 ≤ (x.sub y).units :=
  F64.round_nonneg 1 (by omega)

/-- A quotient of nonnegative values is not negative. -/
theorem F64.div_nonneg {x y : F64} (hx : 0 ≤ x.units) (hy : 0 ≤ y.units) : 0 ≤ (x.div y).units :=
  F64.round_nonneg _ (mul_nonneg (mul_nonneg hx (by positivity)) (Int.sign_nonneg_iff.2 hy))

/-- A value not above 1 scales a nonnegative value of the format down, or leaves it. -/
theorem F64.mul_le_of_le_one {x y : F64} (hr : x.IsRep) (hx : 0 ≤ x.units) (hy : y.units ≤ (F64.ofNat 1).units) :
    (x.mul y).units ≤ x.units := by
  conv_rhs => rw [← F64.round_of_isRep hr]
  refine F64.round_mono F64.one_pos Nat.one_pos ?_
  have hy' : y.units ≤ F64.one := by rw [F64.ofNat_units, Nat.cast_one, one_mul] at hy; exact hy
  rw [Nat.cast_one, mul_one]
  exact mul_le_mul_of_nonneg_left hy' hx

/-- Truncation keeps the order. -/
theorem F64.trunc_mono {x y : F64} (h : x.units ≤ y.units) : x.trunc ≤ y.trunc :=
  Int.tdiv_le_tdiv (by exact_mod_cast F64.one_pos) h

end Sys2Proof.Machine
end

