-- ==== Sys2Proof/Laws/Memory.lean ====
section
/-! SUPPORT. The memories: a read after a write, the canonical form, and its bounds. -/

namespace Sys2Proof.Machine

variable {w : Nat}

@[simp] theorem Mem.read_nil (k : Nat) : Mem.read ([] : Mem w) k = Mem.default w := rfl

/-- In canonical form, an index below every listed one reads the default. -/
theorem Mem.read_below_head (m : Mem w) (k : Nat) (hm : Mem.wf m = true)
    (h : ∀ c ∈ m.head?, k < c.1) : Mem.read m k = Mem.default w := by
  induction m with
  | nil => rfl
  | cons c m ih =>
    obtain ⟨a, x⟩ := c
    have ha : k < a := h (a, x) (by simp)
    simp only [Mem.wf, Bool.and_eq_true] at hm
    have hk : k ≠ a := by omega
    simp only [Mem.read, if_neg hk]
    refine ih hm.2 fun c hc => ?_
    have := hm.1.2
    cases m with
    | nil => simp at hc
    | cons d m => simp at hc this; subst hc; omega

/-- Reading the index just written gives the value written; every other index reads as before. -/
theorem Mem.read_write (m : Mem w) (hm : Mem.wf m = true) (k : Nat) (v : BitVec w) (j : Nat) :
    Mem.read (Mem.write m k v) j = if j = k then v else Mem.read m j := by
  induction m with
  | nil =>
    by_cases hv : v = Mem.default w
    · subst hv; simp [Mem.write]
    · simp [Mem.write, hv, Mem.read]
  | cons c m ih =>
    obtain ⟨a, x⟩ := c
    have hwf := hm
    simp only [Mem.wf, Bool.and_eq_true] at hm
    have tail_default : ∀ i, i ≤ a → Mem.read m i = Mem.default w := by
      intro i hi
      refine Mem.read_below_head m i hm.2 fun c hc => ?_
      have := hm.1.2
      cases m with
      | nil => simp at hc
      | cons d m => simp at hc this; subst hc; omega
    unfold Mem.write
    split
    case isTrue hka =>
      have hmiss : Mem.read ((a, x) :: m) k = Mem.default w := by
        simp only [Mem.read, if_neg (Nat.ne_of_lt hka)]; exact tail_default k (Nat.le_of_lt hka)
      split
      case isTrue hv => split <;> simp_all
      case isFalse hv => simp only [Mem.read]
    case isFalse hka =>
      split
      case isTrue hk =>
        subst hk
        split
        case isTrue hv =>
          by_cases hj : j = k
          · subst hj; simp [hv, tail_default j (Nat.le_refl _)]
          · simp [Mem.read, hj]
        case isFalse hv => simp only [Mem.read]; split <;> simp_all
      case isFalse hk =>
        simp only [Mem.read]
        split
        case isTrue hj => subst hj; simp [Ne.symm hk]
        case isFalse hj => exact ih hm.2

/-- A head index of a written memory is the written index or the old head index. -/
theorem Mem.head_write (m : Mem w) (hm : Mem.wf m = true) (k : Nat) (v : BitVec w) (n : Nat)
    (hk : n < k) (h : (m.head?.all fun c => decide (n < c.1)) = true) :
    ((Mem.write m k v).head?.all fun c => decide (n < c.1)) = true := by
  cases m with
  | nil => simp only [Mem.write]; split <;> simp [hk]
  | cons c m =>
    obtain ⟨a, x⟩ := c
    have ha : n < a := by simpa using h
    simp only [Mem.wf, Bool.and_eq_true] at hm
    unfold Mem.write
    split
    · split <;> simp [hk, ha]
    · split
      · split
        · cases m with
          | nil => simp
          | cons d m => have := hm.1.2; simp at this ⊢; omega
        · simp [hk]
      · simp [ha]

/-- A write keeps the canonical form. -/
theorem Mem.wf_write (m : Mem w) (hm : Mem.wf m = true) (k : Nat) (v : BitVec w) : Mem.wf (Mem.write m k v) = true := by
  induction m with
  | nil => simp only [Mem.write]; split <;> simp_all [Mem.wf]
  | cons c m ih =>
    obtain ⟨a, x⟩ := c
    have hwf := hm
    simp only [Mem.wf, Bool.and_eq_true] at hm
    unfold Mem.write
    split
    case isTrue hka =>
      split
      · exact hwf
      case isFalse hv => simp only [Mem.wf, Bool.and_eq_true]; simp_all
    case isFalse hka =>
      split
      case isTrue hk =>
        split
        · exact hm.2
        case isFalse hv => simp only [Mem.wf, Bool.and_eq_true]; simp_all
      case isFalse hk =>
        simp only [Mem.wf, Bool.and_eq_true]
        exact ⟨⟨hm.1.1, Mem.head_write m hm.2 k v a (by omega) hm.1.2⟩, ih hm.2⟩

/-- The entries of a written memory are old ones or the written one. -/
theorem Mem.mem_write (m : Mem w) (k : Nat) (v : BitVec w) (c : Nat × BitVec w) (hc : c ∈ Mem.write m k v) :
    c ∈ m ∨ c = (k, v) := by
  induction m with
  | nil => simp only [Mem.write] at hc; split at hc <;> simp_all
  | cons d m ih =>
    obtain ⟨a, x⟩ := d
    unfold Mem.write at hc
    split at hc
    · split at hc <;> simp_all
      tauto
    · split at hc
      · split at hc <;> simp_all
        tauto
      · simp only [List.mem_cons] at hc ⊢
        rcases hc with hc | hc
        · exact .inl (.inl hc)
        · rcases ih hc with h | h
          · exact .inl (.inr h)
          · exact .inr h

/-- A write below a bound keeps the bound. -/
theorem Mem.below_write (m : Mem w) (n k : Nat) (v : BitVec w) (hm : Mem.below m n) (hk : k < n) :
    Mem.below (Mem.write m k v) n := by
  intro c hc
  rcases Mem.mem_write m k v c hc with h | rfl
  · exact hm c h
  · exact hk

/-- Storing a list keeps the canonical form. -/
theorem Mem.wf_writeList (vs : List (BitVec w)) (m : Mem w) (i : Nat) (hm : Mem.wf m = true) :
    Mem.wf (Mem.writeList m i vs) = true := by
  induction vs generalizing m i with
  | nil => exact hm
  | cons v vs ih => exact ih _ _ (Mem.wf_write m hm i v)

/-- Storing a list below a bound keeps the bound. -/
theorem Mem.below_writeList (vs : List (BitVec w)) (m : Mem w) (i n : Nat) (hm : Mem.below m n) (h : i + vs.length ≤ n) :
    Mem.below (Mem.writeList m i vs) n := by
  induction vs generalizing m i with
  | nil => exact hm
  | cons v vs ih =>
    simp only [List.length_cons] at h
    exact ih _ _ (Mem.below_write m n i v hm (by omega)) (by omega)

/-- What a stored list reads back as: entry `j` of the list at index `i + j`, every other index as before. -/
theorem Mem.read_writeList (vs : List (BitVec w)) (m : Mem w) (i j : Nat) (hm : Mem.wf m = true) :
    Mem.read (Mem.writeList m i vs) j =
      if h : i ≤ j ∧ j - i < vs.length then vs[j - i] else Mem.read m j := by
  induction vs generalizing m i with
  | nil => simp [Mem.writeList]
  | cons v vs ih =>
    rw [Mem.writeList, ih _ _ (Mem.wf_write m hm i v), Mem.read_write m hm]
    by_cases hj : j = i
    · subst hj; simp
    · by_cases h : i + 1 ≤ j ∧ j - (i + 1) < vs.length
      · have h' : i ≤ j ∧ j - i < (v :: vs).length := by simp only [List.length_cons]; omega
        rw [dif_pos h, dif_pos h']
        have : j - i = (j - (i + 1)) + 1 := by omega
        simp only [this, List.getElem_cons_succ]
      · have h' : ¬(i ≤ j ∧ j - i < (v :: vs).length) := by simp only [List.length_cons]; omega
        rw [dif_neg h, dif_neg h', if_neg hj]

/-- In canonical form the head entry reads as itself and is not the default. -/
theorem Mem.wf_cons (a : Nat) (x : BitVec w) (m : Mem w) (h : Mem.wf ((a, x) :: m) = true) :
    x ≠ Mem.default w ∧ (∀ k, k ≤ a → Mem.read m k = Mem.default w) ∧ Mem.wf m = true := by
  simp only [Mem.wf, Bool.and_eq_true] at h
  refine ⟨by simpa using h.1.1, fun k hk => Mem.read_below_head m k h.2 fun c hc => ?_, h.2⟩
  have := h.1.2
  cases m with
  | nil => simp at hc
  | cons d m => simp at hc this; subst hc; omega

/-- The form is canonical: two memories that read alike are equal data. -/
theorem Mem.ext_of_wf (m n : Mem w) (hm : Mem.wf m = true) (hn : Mem.wf n = true)
    (h : ∀ k, Mem.read m k = Mem.read n k) : m = n := by
  induction m generalizing n with
  | nil =>
    cases n with
    | nil => rfl
    | cons d n =>
      obtain ⟨b, y⟩ := d
      have := Mem.wf_cons b y n hn
      have hb := h b
      simp [Mem.read] at hb
      exact absurd hb.symm this.1
  | cons c m ih =>
    obtain ⟨a, x⟩ := c
    have h1 := Mem.wf_cons a x m hm
    cases n with
    | nil => have ha := h a; simp [Mem.read] at ha; exact absurd ha h1.1
    | cons d n =>
      obtain ⟨b, y⟩ := d
      have h2 := Mem.wf_cons b y n hn
      have hab : a = b := by
        rcases Nat.lt_trichotomy a b with hlt | heq | hlt
        · have ha := h a
          simp only [Mem.read, if_true, if_neg (Nat.ne_of_lt hlt), h2.2.1 a (Nat.le_of_lt hlt)] at ha
          exact absurd ha h1.1
        · exact heq
        · have hb := h b
          simp only [Mem.read, if_true, if_neg (Nat.ne_of_lt hlt), h1.2.1 b (Nat.le_of_lt hlt)] at hb
          exact absurd hb.symm h2.1
      subst hab
      have hx : x = y := by simpa [Mem.read] using h a
      subst hx
      rw [ih n h1.2.2 h2.2.2 fun k => ?_]
      by_cases hk : k = a
      · subst hk; rw [h1.2.1 k (Nat.le_refl _), h2.2.1 k (Nat.le_refl _)]
      · simpa [Mem.read, hk] using h k

end Sys2Proof.Machine
end

