-- ==== Sys2Proof/Laws/State.lean ====
section
/-! SUPPORT. One lemma per field per shared update of the state, so that no later proof unfolds a record update. -/

namespace Sys2Proof.Machine

@[simp] theorem enterFatal_cfg (c : Cause) (info : Word) (s : State) : (enterFatal c info s).cfg = s.cfg := rfl
@[simp] theorem enterFatal_life (c : Cause) (info : Word) (s : State) : (enterFatal c info s).life = .fatal := rfl
@[simp] theorem enterFatal_trunc (c : Cause) (info : Word) (s : State) : (enterFatal c info s).trunc = s.trunc := rfl
@[simp] theorem enterFatal_relay (c : Cause) (info : Word) (s : State) : (enterFatal c info s).relay = s.relay := rfl
@[simp] theorem enterFatal_cmdErr (c : Cause) (info : Word) (s : State) : (enterFatal c info s).cmdErr = s.cmdErr := rfl
@[simp] theorem enterFatal_rxOverlong (c : Cause) (info : Word) (s : State) : (enterFatal c info s).rxOverlong = s.rxOverlong := rfl
@[simp] theorem enterFatal_errCode (c : Cause) (info : Word) (s : State) : (enterFatal c info s).errCode = c.code := rfl
@[simp] theorem enterFatal_errInfo (c : Cause) (info : Word) (s : State) : (enterFatal c info s).errInfo = info := rfl
@[simp] theorem enterFatal_pos (c : Cause) (info : Word) (s : State) : (enterFatal c info s).pos = s.pos := rfl
@[simp] theorem enterFatal_countSr (c : Cause) (info : Word) (s : State) : (enterFatal c info s).countSr = s.countSr := rfl
@[simp] theorem enterFatal_wordSr (c : Cause) (info : Word) (s : State) : (enterFatal c info s).wordSr = s.wordSr := rfl
@[simp] theorem enterFatal_trailing (c : Cause) (info : Word) (s : State) : (enterFatal c info s).trailing = s.trailing := rfl
@[simp] theorem enterFatal_declCount (c : Cause) (info : Word) (s : State) : (enterFatal c info s).declCount = s.declCount := rfl
@[simp] theorem enterFatal_len (c : Cause) (info : Word) (s : State) : (enterFatal c info s).len = s.len := rfl
@[simp] theorem enterFatal_maxBright (c : Cause) (info : Word) (s : State) : (enterFatal c info s).maxBright = s.maxBright := rfl
@[simp] theorem enterFatal_dynRange (c : Cause) (info : Word) (s : State) : (enterFatal c info s).dynRange = s.dynRange := rfl
@[simp] theorem enterFatal_timeIndex (c : Cause) (info : Word) (s : State) : (enterFatal c info s).timeIndex = s.timeIndex := rfl
@[simp] theorem enterFatal_pwm0Duty (c : Cause) (info : Word) (s : State) : (enterFatal c info s).pwm0Duty = s.pwm0Duty := rfl
@[simp] theorem enterFatal_pwm1Duty (c : Cause) (info : Word) (s : State) : (enterFatal c info s).pwm1Duty = s.pwm1Duty := rfl
@[simp] theorem enterFatal_tickCount (c : Cause) (info : Word) (s : State) : (enterFatal c info s).tickCount = s.tickCount := rfl
@[simp] theorem enterFatal_tblAddr (c : Cause) (info : Word) (s : State) : (enterFatal c info s).tblAddr = s.tblAddr := rfl
@[simp] theorem enterFatal_lineCount (c : Cause) (info : Word) (s : State) : (enterFatal c info s).lineCount = s.lineCount := rfl
@[simp] theorem enterFatal_lastCmd (c : Cause) (info : Word) (s : State) : (enterFatal c info s).lastCmd = s.lastCmd := rfl
@[simp] theorem enterFatal_fatalIe (c : Cause) (info : Word) (s : State) : (enterFatal c info s).fatalIe = s.fatalIe := rfl
@[simp] theorem enterFatal_sample (c : Cause) (info : Word) (s : State) : (enterFatal c info s).sample = s.sample := rfl
@[simp] theorem enterFatal_lut (c : Cause) (info : Word) (s : State) : (enterFatal c info s).lut = s.lut := rfl
@[simp] theorem enterFatal_lutValid (c : Cause) (info : Word) (s : State) : (enterFatal c info s).lutValid = s.lutValid := rfl
@[simp] theorem enterFatal_lineBuf (c : Cause) (info : Word) (s : State) : (enterFatal c info s).lineBuf = s.lineBuf := rfl
@[simp] theorem enterFatal_lineLen (c : Cause) (info : Word) (s : State) : (enterFatal c info s).lineLen = s.lineLen := rfl
@[simp] theorem enterFatal_lineOvf (c : Cause) (info : Word) (s : State) : (enterFatal c info s).lineOvf = s.lineOvf := rfl
@[simp] theorem enterFatal_linePend (c : Cause) (info : Word) (s : State) : (enterFatal c info s).linePend = s.linePend := rfl
@[simp] theorem enterFatal_txq (c : Cause) (info : Word) (s : State) : (enterFatal c info s).txq = s.txq := rfl
@[simp] theorem enterFatal_tb (c : Cause) (info : Word) (s : State) : (enterFatal c info s).tb = s.tb := rfl
@[simp] theorem enterFatal_tickPend (c : Cause) (info : Word) (s : State) : (enterFatal c info s).tickPend = s.tickPend := rfl
@[simp] theorem enterFatal_cp (c : Cause) (info : Word) (s : State) : (enterFatal c info s).cp = s.cp := rfl
@[simp] theorem enterFatal_presc (c : Cause) (info : Word) (s : State) : (enterFatal c info s).presc = s.presc := rfl
@[simp] theorem enterFatal_pwmCnt (c : Cause) (info : Word) (s : State) : (enterFatal c info s).pwmCnt = s.pwmCnt := rfl
@[simp] theorem enterFatal_active0 (c : Cause) (info : Word) (s : State) : (enterFatal c info s).active0 = s.active0 := rfl
@[simp] theorem enterFatal_active1 (c : Cause) (info : Word) (s : State) : (enterFatal c info s).active1 = s.active1 := rfl
@[simp] theorem enterFatal_busReady (c : Cause) (info : Word) (s : State) : (enterFatal c info s).busReady = s.busReady := rfl
@[simp] theorem enterFatal_busErr (c : Cause) (info : Word) (s : State) : (enterFatal c info s).busErr = s.busErr := rfl
@[simp] theorem enterFatal_busRdata (c : Cause) (info : Word) (s : State) : (enterFatal c info s).busRdata = s.busRdata := rfl
@[simp] theorem enterFatal_inp (c : Cause) (info : Word) (s : State) : (enterFatal c info s).inp = s.inp := rfl
@[simp] theorem enterFatal_schedule (c : Cause) (info : Word) (s : State) : (enterFatal c info s).schedule = s.schedule := rfl
@[simp] theorem enterFatal_envCount (c : Cause) (info : Word) (s : State) : (enterFatal c info s).envCount = s.envCount := rfl

@[simp] theorem flagCmdErr_cfg (s : State) : (flagCmdErr s).cfg = s.cfg := rfl
@[simp] theorem flagCmdErr_life (s : State) : (flagCmdErr s).life = s.life := rfl
@[simp] theorem flagCmdErr_trunc (s : State) : (flagCmdErr s).trunc = s.trunc := rfl
@[simp] theorem flagCmdErr_relay (s : State) : (flagCmdErr s).relay = s.relay := rfl
@[simp] theorem flagCmdErr_cmdErr (s : State) : (flagCmdErr s).cmdErr = true := rfl
@[simp] theorem flagCmdErr_rxOverlong (s : State) : (flagCmdErr s).rxOverlong = s.rxOverlong := rfl
@[simp] theorem flagCmdErr_errCode (s : State) : (flagCmdErr s).errCode = s.errCode := rfl
@[simp] theorem flagCmdErr_errInfo (s : State) : (flagCmdErr s).errInfo = s.errInfo := rfl
@[simp] theorem flagCmdErr_pos (s : State) : (flagCmdErr s).pos = s.pos := rfl
@[simp] theorem flagCmdErr_countSr (s : State) : (flagCmdErr s).countSr = s.countSr := rfl
@[simp] theorem flagCmdErr_wordSr (s : State) : (flagCmdErr s).wordSr = s.wordSr := rfl
@[simp] theorem flagCmdErr_trailing (s : State) : (flagCmdErr s).trailing = s.trailing := rfl
@[simp] theorem flagCmdErr_declCount (s : State) : (flagCmdErr s).declCount = s.declCount := rfl
@[simp] theorem flagCmdErr_len (s : State) : (flagCmdErr s).len = s.len := rfl
@[simp] theorem flagCmdErr_maxBright (s : State) : (flagCmdErr s).maxBright = s.maxBright := rfl
@[simp] theorem flagCmdErr_dynRange (s : State) : (flagCmdErr s).dynRange = s.dynRange := rfl
@[simp] theorem flagCmdErr_timeIndex (s : State) : (flagCmdErr s).timeIndex = s.timeIndex := rfl
@[simp] theorem flagCmdErr_pwm0Duty (s : State) : (flagCmdErr s).pwm0Duty = s.pwm0Duty := rfl
@[simp] theorem flagCmdErr_pwm1Duty (s : State) : (flagCmdErr s).pwm1Duty = s.pwm1Duty := rfl
@[simp] theorem flagCmdErr_tickCount (s : State) : (flagCmdErr s).tickCount = s.tickCount := rfl
@[simp] theorem flagCmdErr_tblAddr (s : State) : (flagCmdErr s).tblAddr = s.tblAddr := rfl
@[simp] theorem flagCmdErr_lineCount (s : State) : (flagCmdErr s).lineCount = s.lineCount := rfl
@[simp] theorem flagCmdErr_lastCmd (s : State) : (flagCmdErr s).lastCmd = s.lastCmd := rfl
@[simp] theorem flagCmdErr_fatalIe (s : State) : (flagCmdErr s).fatalIe = s.fatalIe := rfl
@[simp] theorem flagCmdErr_sample (s : State) : (flagCmdErr s).sample = s.sample := rfl
@[simp] theorem flagCmdErr_lut (s : State) : (flagCmdErr s).lut = s.lut := rfl
@[simp] theorem flagCmdErr_lutValid (s : State) : (flagCmdErr s).lutValid = s.lutValid := rfl
@[simp] theorem flagCmdErr_lineBuf (s : State) : (flagCmdErr s).lineBuf = s.lineBuf := rfl
@[simp] theorem flagCmdErr_lineLen (s : State) : (flagCmdErr s).lineLen = s.lineLen := rfl
@[simp] theorem flagCmdErr_lineOvf (s : State) : (flagCmdErr s).lineOvf = s.lineOvf := rfl
@[simp] theorem flagCmdErr_linePend (s : State) : (flagCmdErr s).linePend = s.linePend := rfl
@[simp] theorem flagCmdErr_txq (s : State) : (flagCmdErr s).txq = s.txq := rfl
@[simp] theorem flagCmdErr_tb (s : State) : (flagCmdErr s).tb = s.tb := rfl
@[simp] theorem flagCmdErr_tickPend (s : State) : (flagCmdErr s).tickPend = s.tickPend := rfl
@[simp] theorem flagCmdErr_cp (s : State) : (flagCmdErr s).cp = s.cp := rfl
@[simp] theorem flagCmdErr_presc (s : State) : (flagCmdErr s).presc = s.presc := rfl
@[simp] theorem flagCmdErr_pwmCnt (s : State) : (flagCmdErr s).pwmCnt = s.pwmCnt := rfl
@[simp] theorem flagCmdErr_active0 (s : State) : (flagCmdErr s).active0 = s.active0 := rfl
@[simp] theorem flagCmdErr_active1 (s : State) : (flagCmdErr s).active1 = s.active1 := rfl
@[simp] theorem flagCmdErr_busReady (s : State) : (flagCmdErr s).busReady = s.busReady := rfl
@[simp] theorem flagCmdErr_busErr (s : State) : (flagCmdErr s).busErr = s.busErr := rfl
@[simp] theorem flagCmdErr_busRdata (s : State) : (flagCmdErr s).busRdata = s.busRdata := rfl
@[simp] theorem flagCmdErr_inp (s : State) : (flagCmdErr s).inp = s.inp := rfl
@[simp] theorem flagCmdErr_schedule (s : State) : (flagCmdErr s).schedule = s.schedule := rfl
@[simp] theorem flagCmdErr_envCount (s : State) : (flagCmdErr s).envCount = s.envCount := rfl

@[simp] theorem respond_cfg (v : Word) (s : State) : (respond v s).cfg = s.cfg := rfl
@[simp] theorem respond_life (v : Word) (s : State) : (respond v s).life = s.life := rfl
@[simp] theorem respond_trunc (v : Word) (s : State) : (respond v s).trunc = s.trunc := rfl
@[simp] theorem respond_relay (v : Word) (s : State) : (respond v s).relay = s.relay := rfl
@[simp] theorem respond_cmdErr (v : Word) (s : State) : (respond v s).cmdErr = s.cmdErr := rfl
@[simp] theorem respond_rxOverlong (v : Word) (s : State) : (respond v s).rxOverlong = s.rxOverlong := rfl
@[simp] theorem respond_errCode (v : Word) (s : State) : (respond v s).errCode = s.errCode := rfl
@[simp] theorem respond_errInfo (v : Word) (s : State) : (respond v s).errInfo = s.errInfo := rfl
@[simp] theorem respond_pos (v : Word) (s : State) : (respond v s).pos = s.pos := rfl
@[simp] theorem respond_countSr (v : Word) (s : State) : (respond v s).countSr = s.countSr := rfl
@[simp] theorem respond_wordSr (v : Word) (s : State) : (respond v s).wordSr = s.wordSr := rfl
@[simp] theorem respond_trailing (v : Word) (s : State) : (respond v s).trailing = s.trailing := rfl
@[simp] theorem respond_declCount (v : Word) (s : State) : (respond v s).declCount = s.declCount := rfl
@[simp] theorem respond_len (v : Word) (s : State) : (respond v s).len = s.len := rfl
@[simp] theorem respond_maxBright (v : Word) (s : State) : (respond v s).maxBright = s.maxBright := rfl
@[simp] theorem respond_dynRange (v : Word) (s : State) : (respond v s).dynRange = s.dynRange := rfl
@[simp] theorem respond_timeIndex (v : Word) (s : State) : (respond v s).timeIndex = s.timeIndex := rfl
@[simp] theorem respond_pwm0Duty (v : Word) (s : State) : (respond v s).pwm0Duty = s.pwm0Duty := rfl
@[simp] theorem respond_pwm1Duty (v : Word) (s : State) : (respond v s).pwm1Duty = s.pwm1Duty := rfl
@[simp] theorem respond_tickCount (v : Word) (s : State) : (respond v s).tickCount = s.tickCount := rfl
@[simp] theorem respond_tblAddr (v : Word) (s : State) : (respond v s).tblAddr = s.tblAddr := rfl
@[simp] theorem respond_lineCount (v : Word) (s : State) : (respond v s).lineCount = s.lineCount := rfl
@[simp] theorem respond_lastCmd (v : Word) (s : State) : (respond v s).lastCmd = s.lastCmd := rfl
@[simp] theorem respond_fatalIe (v : Word) (s : State) : (respond v s).fatalIe = s.fatalIe := rfl
@[simp] theorem respond_sample (v : Word) (s : State) : (respond v s).sample = s.sample := rfl
@[simp] theorem respond_lut (v : Word) (s : State) : (respond v s).lut = s.lut := rfl
@[simp] theorem respond_lutValid (v : Word) (s : State) : (respond v s).lutValid = s.lutValid := rfl
@[simp] theorem respond_lineBuf (v : Word) (s : State) : (respond v s).lineBuf = s.lineBuf := rfl
@[simp] theorem respond_lineLen (v : Word) (s : State) : (respond v s).lineLen = s.lineLen := rfl
@[simp] theorem respond_lineOvf (v : Word) (s : State) : (respond v s).lineOvf = s.lineOvf := rfl
@[simp] theorem respond_linePend (v : Word) (s : State) : (respond v s).linePend = s.linePend := rfl
@[simp] theorem respond_txq (v : Word) (s : State) : (respond v s).txq = s.txq := rfl
@[simp] theorem respond_tb (v : Word) (s : State) : (respond v s).tb = s.tb := rfl
@[simp] theorem respond_tickPend (v : Word) (s : State) : (respond v s).tickPend = s.tickPend := rfl
@[simp] theorem respond_cp (v : Word) (s : State) : (respond v s).cp = s.cp := rfl
@[simp] theorem respond_presc (v : Word) (s : State) : (respond v s).presc = s.presc := rfl
@[simp] theorem respond_pwmCnt (v : Word) (s : State) : (respond v s).pwmCnt = s.pwmCnt := rfl
@[simp] theorem respond_active0 (v : Word) (s : State) : (respond v s).active0 = s.active0 := rfl
@[simp] theorem respond_active1 (v : Word) (s : State) : (respond v s).active1 = s.active1 := rfl
@[simp] theorem respond_busReady (v : Word) (s : State) : (respond v s).busReady = true := rfl
@[simp] theorem respond_busErr (v : Word) (s : State) : (respond v s).busErr = false := rfl
@[simp] theorem respond_busRdata (v : Word) (s : State) : (respond v s).busRdata = v := rfl
@[simp] theorem respond_inp (v : Word) (s : State) : (respond v s).inp = s.inp := rfl
@[simp] theorem respond_schedule (v : Word) (s : State) : (respond v s).schedule = s.schedule := rfl
@[simp] theorem respond_envCount (v : Word) (s : State) : (respond v s).envCount = s.envCount := rfl

@[simp] theorem refuseAccess_cfg (s : State) : (refuseAccess s).cfg = s.cfg := rfl
@[simp] theorem refuseAccess_life (s : State) : (refuseAccess s).life = s.life := rfl
@[simp] theorem refuseAccess_trunc (s : State) : (refuseAccess s).trunc = s.trunc := rfl
@[simp] theorem refuseAccess_relay (s : State) : (refuseAccess s).relay = s.relay := rfl
@[simp] theorem refuseAccess_cmdErr (s : State) : (refuseAccess s).cmdErr = s.cmdErr := rfl
@[simp] theorem refuseAccess_rxOverlong (s : State) : (refuseAccess s).rxOverlong = s.rxOverlong := rfl
@[simp] theorem refuseAccess_errCode (s : State) : (refuseAccess s).errCode = s.errCode := rfl
@[simp] theorem refuseAccess_errInfo (s : State) : (refuseAccess s).errInfo = s.errInfo := rfl
@[simp] theorem refuseAccess_pos (s : State) : (refuseAccess s).pos = s.pos := rfl
@[simp] theorem refuseAccess_countSr (s : State) : (refuseAccess s).countSr = s.countSr := rfl
@[simp] theorem refuseAccess_wordSr (s : State) : (refuseAccess s).wordSr = s.wordSr := rfl
@[simp] theorem refuseAccess_trailing (s : State) : (refuseAccess s).trailing = s.trailing := rfl
@[simp] theorem refuseAccess_declCount (s : State) : (refuseAccess s).declCount = s.declCount := rfl
@[simp] theorem refuseAccess_len (s : State) : (refuseAccess s).len = s.len := rfl
@[simp] theorem refuseAccess_maxBright (s : State) : (refuseAccess s).maxBright = s.maxBright := rfl
@[simp] theorem refuseAccess_dynRange (s : State) : (refuseAccess s).dynRange = s.dynRange := rfl
@[simp] theorem refuseAccess_timeIndex (s : State) : (refuseAccess s).timeIndex = s.timeIndex := rfl
@[simp] theorem refuseAccess_pwm0Duty (s : State) : (refuseAccess s).pwm0Duty = s.pwm0Duty := rfl
@[simp] theorem refuseAccess_pwm1Duty (s : State) : (refuseAccess s).pwm1Duty = s.pwm1Duty := rfl
@[simp] theorem refuseAccess_tickCount (s : State) : (refuseAccess s).tickCount = s.tickCount := rfl
@[simp] theorem refuseAccess_tblAddr (s : State) : (refuseAccess s).tblAddr = s.tblAddr := rfl
@[simp] theorem refuseAccess_lineCount (s : State) : (refuseAccess s).lineCount = s.lineCount := rfl
@[simp] theorem refuseAccess_lastCmd (s : State) : (refuseAccess s).lastCmd = s.lastCmd := rfl
@[simp] theorem refuseAccess_fatalIe (s : State) : (refuseAccess s).fatalIe = s.fatalIe := rfl
@[simp] theorem refuseAccess_sample (s : State) : (refuseAccess s).sample = s.sample := rfl
@[simp] theorem refuseAccess_lut (s : State) : (refuseAccess s).lut = s.lut := rfl
@[simp] theorem refuseAccess_lutValid (s : State) : (refuseAccess s).lutValid = s.lutValid := rfl
@[simp] theorem refuseAccess_lineBuf (s : State) : (refuseAccess s).lineBuf = s.lineBuf := rfl
@[simp] theorem refuseAccess_lineLen (s : State) : (refuseAccess s).lineLen = s.lineLen := rfl
@[simp] theorem refuseAccess_lineOvf (s : State) : (refuseAccess s).lineOvf = s.lineOvf := rfl
@[simp] theorem refuseAccess_linePend (s : State) : (refuseAccess s).linePend = s.linePend := rfl
@[simp] theorem refuseAccess_txq (s : State) : (refuseAccess s).txq = s.txq := rfl
@[simp] theorem refuseAccess_tb (s : State) : (refuseAccess s).tb = s.tb := rfl
@[simp] theorem refuseAccess_tickPend (s : State) : (refuseAccess s).tickPend = s.tickPend := rfl
@[simp] theorem refuseAccess_cp (s : State) : (refuseAccess s).cp = s.cp := rfl
@[simp] theorem refuseAccess_presc (s : State) : (refuseAccess s).presc = s.presc := rfl
@[simp] theorem refuseAccess_pwmCnt (s : State) : (refuseAccess s).pwmCnt = s.pwmCnt := rfl
@[simp] theorem refuseAccess_active0 (s : State) : (refuseAccess s).active0 = s.active0 := rfl
@[simp] theorem refuseAccess_active1 (s : State) : (refuseAccess s).active1 = s.active1 := rfl
@[simp] theorem refuseAccess_busReady (s : State) : (refuseAccess s).busReady = true := rfl
@[simp] theorem refuseAccess_busErr (s : State) : (refuseAccess s).busErr = true := rfl
@[simp] theorem refuseAccess_busRdata (s : State) : (refuseAccess s).busRdata = 0 := rfl
@[simp] theorem refuseAccess_inp (s : State) : (refuseAccess s).inp = s.inp := rfl
@[simp] theorem refuseAccess_schedule (s : State) : (refuseAccess s).schedule = s.schedule := rfl
@[simp] theorem refuseAccess_envCount (s : State) : (refuseAccess s).envCount = s.envCount := rfl

@[simp] theorem writeDuty_cfg (d : Duty) (s : State) : (writeDuty d s).cfg = s.cfg := rfl
@[simp] theorem writeDuty_life (d : Duty) (s : State) : (writeDuty d s).life = s.life := rfl
@[simp] theorem writeDuty_trunc (d : Duty) (s : State) : (writeDuty d s).trunc = s.trunc := rfl
@[simp] theorem writeDuty_relay (d : Duty) (s : State) : (writeDuty d s).relay = s.relay := rfl
@[simp] theorem writeDuty_cmdErr (d : Duty) (s : State) : (writeDuty d s).cmdErr = s.cmdErr := rfl
@[simp] theorem writeDuty_rxOverlong (d : Duty) (s : State) : (writeDuty d s).rxOverlong = s.rxOverlong := rfl
@[simp] theorem writeDuty_errCode (d : Duty) (s : State) : (writeDuty d s).errCode = s.errCode := rfl
@[simp] theorem writeDuty_errInfo (d : Duty) (s : State) : (writeDuty d s).errInfo = s.errInfo := rfl
@[simp] theorem writeDuty_pos (d : Duty) (s : State) : (writeDuty d s).pos = s.pos := rfl
@[simp] theorem writeDuty_countSr (d : Duty) (s : State) : (writeDuty d s).countSr = s.countSr := rfl
@[simp] theorem writeDuty_wordSr (d : Duty) (s : State) : (writeDuty d s).wordSr = s.wordSr := rfl
@[simp] theorem writeDuty_trailing (d : Duty) (s : State) : (writeDuty d s).trailing = s.trailing := rfl
@[simp] theorem writeDuty_declCount (d : Duty) (s : State) : (writeDuty d s).declCount = s.declCount := rfl
@[simp] theorem writeDuty_len (d : Duty) (s : State) : (writeDuty d s).len = s.len := rfl
@[simp] theorem writeDuty_maxBright (d : Duty) (s : State) : (writeDuty d s).maxBright = s.maxBright := rfl
@[simp] theorem writeDuty_dynRange (d : Duty) (s : State) : (writeDuty d s).dynRange = s.dynRange := rfl
@[simp] theorem writeDuty_timeIndex (d : Duty) (s : State) : (writeDuty d s).timeIndex = s.timeIndex := rfl
@[simp] theorem writeDuty_pwm0Duty (d : Duty) (s : State) : (writeDuty d s).pwm0Duty = d := rfl
@[simp] theorem writeDuty_pwm1Duty (d : Duty) (s : State) : (writeDuty d s).pwm1Duty = d := rfl
@[simp] theorem writeDuty_tickCount (d : Duty) (s : State) : (writeDuty d s).tickCount = s.tickCount + 1 := rfl
@[simp] theorem writeDuty_tblAddr (d : Duty) (s : State) : (writeDuty d s).tblAddr = s.tblAddr := rfl
@[simp] theorem writeDuty_lineCount (d : Duty) (s : State) : (writeDuty d s).lineCount = s.lineCount := rfl
@[simp] theorem writeDuty_lastCmd (d : Duty) (s : State) : (writeDuty d s).lastCmd = s.lastCmd := rfl
@[simp] theorem writeDuty_fatalIe (d : Duty) (s : State) : (writeDuty d s).fatalIe = s.fatalIe := rfl
@[simp] theorem writeDuty_sample (d : Duty) (s : State) : (writeDuty d s).sample = s.sample := rfl
@[simp] theorem writeDuty_lut (d : Duty) (s : State) : (writeDuty d s).lut = s.lut := rfl
@[simp] theorem writeDuty_lutValid (d : Duty) (s : State) : (writeDuty d s).lutValid = s.lutValid := rfl
@[simp] theorem writeDuty_lineBuf (d : Duty) (s : State) : (writeDuty d s).lineBuf = s.lineBuf := rfl
@[simp] theorem writeDuty_lineLen (d : Duty) (s : State) : (writeDuty d s).lineLen = s.lineLen := rfl
@[simp] theorem writeDuty_lineOvf (d : Duty) (s : State) : (writeDuty d s).lineOvf = s.lineOvf := rfl
@[simp] theorem writeDuty_linePend (d : Duty) (s : State) : (writeDuty d s).linePend = s.linePend := rfl
@[simp] theorem writeDuty_txq (d : Duty) (s : State) : (writeDuty d s).txq = s.txq := rfl
@[simp] theorem writeDuty_tb (d : Duty) (s : State) : (writeDuty d s).tb = s.tb := rfl
@[simp] theorem writeDuty_tickPend (d : Duty) (s : State) : (writeDuty d s).tickPend = s.tickPend := rfl
@[simp] theorem writeDuty_cp (d : Duty) (s : State) : (writeDuty d s).cp = s.cp := rfl
@[simp] theorem writeDuty_presc (d : Duty) (s : State) : (writeDuty d s).presc = s.presc := rfl
@[simp] theorem writeDuty_pwmCnt (d : Duty) (s : State) : (writeDuty d s).pwmCnt = s.pwmCnt := rfl
@[simp] theorem writeDuty_active0 (d : Duty) (s : State) : (writeDuty d s).active0 = s.active0 := rfl
@[simp] theorem writeDuty_active1 (d : Duty) (s : State) : (writeDuty d s).active1 = s.active1 := rfl
@[simp] theorem writeDuty_busReady (d : Duty) (s : State) : (writeDuty d s).busReady = s.busReady := rfl
@[simp] theorem writeDuty_busErr (d : Duty) (s : State) : (writeDuty d s).busErr = s.busErr := rfl
@[simp] theorem writeDuty_busRdata (d : Duty) (s : State) : (writeDuty d s).busRdata = s.busRdata := rfl
@[simp] theorem writeDuty_inp (d : Duty) (s : State) : (writeDuty d s).inp = s.inp := rfl
@[simp] theorem writeDuty_schedule (d : Duty) (s : State) : (writeDuty d s).schedule = s.schedule := rfl
@[simp] theorem writeDuty_envCount (d : Duty) (s : State) : (writeDuty d s).envCount = s.envCount := rfl

@[simp] theorem advancePos_cfg (s : State) : (advancePos s).cfg = s.cfg := rfl
@[simp] theorem advancePos_life (s : State) : (advancePos s).life = s.life := rfl
@[simp] theorem advancePos_trunc (s : State) : (advancePos s).trunc = s.trunc := rfl
@[simp] theorem advancePos_relay (s : State) : (advancePos s).relay = s.relay := rfl
@[simp] theorem advancePos_cmdErr (s : State) : (advancePos s).cmdErr = s.cmdErr := rfl
@[simp] theorem advancePos_rxOverlong (s : State) : (advancePos s).rxOverlong = s.rxOverlong := rfl
@[simp] theorem advancePos_errCode (s : State) : (advancePos s).errCode = s.errCode := rfl
@[simp] theorem advancePos_errInfo (s : State) : (advancePos s).errInfo = s.errInfo := rfl
@[simp] theorem advancePos_pos (s : State) : (advancePos s).pos = if s.pos = BitVec.allOnes 36 then s.pos else s.pos + 1 := rfl
@[simp] theorem advancePos_countSr (s : State) : (advancePos s).countSr = s.countSr := rfl
@[simp] theorem advancePos_wordSr (s : State) : (advancePos s).wordSr = s.wordSr := rfl
@[simp] theorem advancePos_trailing (s : State) : (advancePos s).trailing = s.trailing := rfl
@[simp] theorem advancePos_declCount (s : State) : (advancePos s).declCount = s.declCount := rfl
@[simp] theorem advancePos_len (s : State) : (advancePos s).len = s.len := rfl
@[simp] theorem advancePos_maxBright (s : State) : (advancePos s).maxBright = s.maxBright := rfl
@[simp] theorem advancePos_dynRange (s : State) : (advancePos s).dynRange = s.dynRange := rfl
@[simp] theorem advancePos_timeIndex (s : State) : (advancePos s).timeIndex = s.timeIndex := rfl
@[simp] theorem advancePos_pwm0Duty (s : State) : (advancePos s).pwm0Duty = s.pwm0Duty := rfl
@[simp] theorem advancePos_pwm1Duty (s : State) : (advancePos s).pwm1Duty = s.pwm1Duty := rfl
@[simp] theorem advancePos_tickCount (s : State) : (advancePos s).tickCount = s.tickCount := rfl
@[simp] theorem advancePos_tblAddr (s : State) : (advancePos s).tblAddr = s.tblAddr := rfl
@[simp] theorem advancePos_lineCount (s : State) : (advancePos s).lineCount = s.lineCount := rfl
@[simp] theorem advancePos_lastCmd (s : State) : (advancePos s).lastCmd = s.lastCmd := rfl
@[simp] theorem advancePos_fatalIe (s : State) : (advancePos s).fatalIe = s.fatalIe := rfl
@[simp] theorem advancePos_sample (s : State) : (advancePos s).sample = s.sample := rfl
@[simp] theorem advancePos_lut (s : State) : (advancePos s).lut = s.lut := rfl
@[simp] theorem advancePos_lutValid (s : State) : (advancePos s).lutValid = s.lutValid := rfl
@[simp] theorem advancePos_lineBuf (s : State) : (advancePos s).lineBuf = s.lineBuf := rfl
@[simp] theorem advancePos_lineLen (s : State) : (advancePos s).lineLen = s.lineLen := rfl
@[simp] theorem advancePos_lineOvf (s : State) : (advancePos s).lineOvf = s.lineOvf := rfl
@[simp] theorem advancePos_linePend (s : State) : (advancePos s).linePend = s.linePend := rfl
@[simp] theorem advancePos_txq (s : State) : (advancePos s).txq = s.txq := rfl
@[simp] theorem advancePos_tb (s : State) : (advancePos s).tb = s.tb := rfl
@[simp] theorem advancePos_tickPend (s : State) : (advancePos s).tickPend = s.tickPend := rfl
@[simp] theorem advancePos_cp (s : State) : (advancePos s).cp = s.cp := rfl
@[simp] theorem advancePos_presc (s : State) : (advancePos s).presc = s.presc := rfl
@[simp] theorem advancePos_pwmCnt (s : State) : (advancePos s).pwmCnt = s.pwmCnt := rfl
@[simp] theorem advancePos_active0 (s : State) : (advancePos s).active0 = s.active0 := rfl
@[simp] theorem advancePos_active1 (s : State) : (advancePos s).active1 = s.active1 := rfl
@[simp] theorem advancePos_busReady (s : State) : (advancePos s).busReady = s.busReady := rfl
@[simp] theorem advancePos_busErr (s : State) : (advancePos s).busErr = s.busErr := rfl
@[simp] theorem advancePos_busRdata (s : State) : (advancePos s).busRdata = s.busRdata := rfl
@[simp] theorem advancePos_inp (s : State) : (advancePos s).inp = s.inp := rfl
@[simp] theorem advancePos_schedule (s : State) : (advancePos s).schedule = s.schedule := rfl
@[simp] theorem advancePos_envCount (s : State) : (advancePos s).envCount = s.envCount := rfl

@[simp] theorem finishLine_cfg (c : Command) (t : List Byte) (ovf : Bool) (s : State) : (finishLine c t ovf s).cfg = s.cfg := rfl
@[simp] theorem finishLine_life (c : Command) (t : List Byte) (ovf : Bool) (s : State) : (finishLine c t ovf s).life = s.life := rfl
@[simp] theorem finishLine_trunc (c : Command) (t : List Byte) (ovf : Bool) (s : State) : (finishLine c t ovf s).trunc = s.trunc := rfl
@[simp] theorem finishLine_relay (c : Command) (t : List Byte) (ovf : Bool) (s : State) : (finishLine c t ovf s).relay = s.relay := rfl
@[simp] theorem finishLine_cmdErr (c : Command) (t : List Byte) (ovf : Bool) (s : State) : (finishLine c t ovf s).cmdErr = s.cmdErr := rfl
@[simp] theorem finishLine_rxOverlong (c : Command) (t : List Byte) (ovf : Bool) (s : State) : (finishLine c t ovf s).rxOverlong = (s.rxOverlong || ovf) := rfl
@[simp] theorem finishLine_errCode (c : Command) (t : List Byte) (ovf : Bool) (s : State) : (finishLine c t ovf s).errCode = s.errCode := rfl
@[simp] theorem finishLine_errInfo (c : Command) (t : List Byte) (ovf : Bool) (s : State) : (finishLine c t ovf s).errInfo = s.errInfo := rfl
@[simp] theorem finishLine_pos (c : Command) (t : List Byte) (ovf : Bool) (s : State) : (finishLine c t ovf s).pos = s.pos := rfl
@[simp] theorem finishLine_countSr (c : Command) (t : List Byte) (ovf : Bool) (s : State) : (finishLine c t ovf s).countSr = s.countSr := rfl
@[simp] theorem finishLine_wordSr (c : Command) (t : List Byte) (ovf : Bool) (s : State) : (finishLine c t ovf s).wordSr = s.wordSr := rfl
@[simp] theorem finishLine_trailing (c : Command) (t : List Byte) (ovf : Bool) (s : State) : (finishLine c t ovf s).trailing = s.trailing := rfl
@[simp] theorem finishLine_declCount (c : Command) (t : List Byte) (ovf : Bool) (s : State) : (finishLine c t ovf s).declCount = s.declCount := rfl
@[simp] theorem finishLine_len (c : Command) (t : List Byte) (ovf : Bool) (s : State) : (finishLine c t ovf s).len = s.len := rfl
@[simp] theorem finishLine_maxBright (c : Command) (t : List Byte) (ovf : Bool) (s : State) : (finishLine c t ovf s).maxBright = s.maxBright := rfl
@[simp] theorem finishLine_dynRange (c : Command) (t : List Byte) (ovf : Bool) (s : State) : (finishLine c t ovf s).dynRange = s.dynRange := rfl
@[simp] theorem finishLine_timeIndex (c : Command) (t : List Byte) (ovf : Bool) (s : State) : (finishLine c t ovf s).timeIndex = s.timeIndex := rfl
@[simp] theorem finishLine_pwm0Duty (c : Command) (t : List Byte) (ovf : Bool) (s : State) : (finishLine c t ovf s).pwm0Duty = s.pwm0Duty := rfl
@[simp] theorem finishLine_pwm1Duty (c : Command) (t : List Byte) (ovf : Bool) (s : State) : (finishLine c t ovf s).pwm1Duty = s.pwm1Duty := rfl
@[simp] theorem finishLine_tickCount (c : Command) (t : List Byte) (ovf : Bool) (s : State) : (finishLine c t ovf s).tickCount = s.tickCount := rfl
@[simp] theorem finishLine_tblAddr (c : Command) (t : List Byte) (ovf : Bool) (s : State) : (finishLine c t ovf s).tblAddr = s.tblAddr := rfl
@[simp] theorem finishLine_lineCount (c : Command) (t : List Byte) (ovf : Bool) (s : State) : (finishLine c t ovf s).lineCount = s.lineCount + 1 := rfl
@[simp] theorem finishLine_lastCmd (c : Command) (t : List Byte) (ovf : Bool) (s : State) : (finishLine c t ovf s).lastCmd = Command.code c := rfl
@[simp] theorem finishLine_fatalIe (c : Command) (t : List Byte) (ovf : Bool) (s : State) : (finishLine c t ovf s).fatalIe = s.fatalIe := rfl
@[simp] theorem finishLine_sample (c : Command) (t : List Byte) (ovf : Bool) (s : State) : (finishLine c t ovf s).sample = s.sample := rfl
@[simp] theorem finishLine_lut (c : Command) (t : List Byte) (ovf : Bool) (s : State) : (finishLine c t ovf s).lut = s.lut := rfl
@[simp] theorem finishLine_lutValid (c : Command) (t : List Byte) (ovf : Bool) (s : State) : (finishLine c t ovf s).lutValid = s.lutValid := rfl
@[simp] theorem finishLine_lineBuf (c : Command) (t : List Byte) (ovf : Bool) (s : State) : (finishLine c t ovf s).lineBuf = s.lineBuf := rfl
@[simp] theorem finishLine_lineLen (c : Command) (t : List Byte) (ovf : Bool) (s : State) : (finishLine c t ovf s).lineLen = 0 := rfl
@[simp] theorem finishLine_lineOvf (c : Command) (t : List Byte) (ovf : Bool) (s : State) : (finishLine c t ovf s).lineOvf = false := rfl
@[simp] theorem finishLine_linePend (c : Command) (t : List Byte) (ovf : Bool) (s : State) : (finishLine c t ovf s).linePend = false := rfl
@[simp] theorem finishLine_txq (c : Command) (t : List Byte) (ovf : Bool) (s : State) : (finishLine c t ovf s).txq = s.txq ++ echo t := rfl
@[simp] theorem finishLine_tb (c : Command) (t : List Byte) (ovf : Bool) (s : State) : (finishLine c t ovf s).tb = s.tb := rfl
@[simp] theorem finishLine_tickPend (c : Command) (t : List Byte) (ovf : Bool) (s : State) : (finishLine c t ovf s).tickPend = s.tickPend := rfl
@[simp] theorem finishLine_cp (c : Command) (t : List Byte) (ovf : Bool) (s : State) : (finishLine c t ovf s).cp = 0 := rfl
@[simp] theorem finishLine_presc (c : Command) (t : List Byte) (ovf : Bool) (s : State) : (finishLine c t ovf s).presc = s.presc := rfl
@[simp] theorem finishLine_pwmCnt (c : Command) (t : List Byte) (ovf : Bool) (s : State) : (finishLine c t ovf s).pwmCnt = s.pwmCnt := rfl
@[simp] theorem finishLine_active0 (c : Command) (t : List Byte) (ovf : Bool) (s : State) : (finishLine c t ovf s).active0 = s.active0 := rfl
@[simp] theorem finishLine_active1 (c : Command) (t : List Byte) (ovf : Bool) (s : State) : (finishLine c t ovf s).active1 = s.active1 := rfl
@[simp] theorem finishLine_busReady (c : Command) (t : List Byte) (ovf : Bool) (s : State) : (finishLine c t ovf s).busReady = s.busReady := rfl
@[simp] theorem finishLine_busErr (c : Command) (t : List Byte) (ovf : Bool) (s : State) : (finishLine c t ovf s).busErr = s.busErr := rfl
@[simp] theorem finishLine_busRdata (c : Command) (t : List Byte) (ovf : Bool) (s : State) : (finishLine c t ovf s).busRdata = s.busRdata := rfl
@[simp] theorem finishLine_inp (c : Command) (t : List Byte) (ovf : Bool) (s : State) : (finishLine c t ovf s).inp = s.inp := rfl
@[simp] theorem finishLine_schedule (c : Command) (t : List Byte) (ovf : Bool) (s : State) : (finishLine c t ovf s).schedule = s.schedule := rfl
@[simp] theorem finishLine_envCount (c : Command) (t : List Byte) (ovf : Bool) (s : State) : (finishLine c t ovf s).envCount = s.envCount := rfl

@[simp] theorem checkDriver_cfg (info : Word) (s : State) : (checkDriver info s).cfg = s.cfg := by unfold checkDriver; split <;> rfl
@[simp] theorem checkDriver_trunc (info : Word) (s : State) : (checkDriver info s).trunc = s.trunc := by unfold checkDriver; split <;> rfl
@[simp] theorem checkDriver_relay (info : Word) (s : State) : (checkDriver info s).relay = s.relay := by unfold checkDriver; split <;> rfl
@[simp] theorem checkDriver_cmdErr (info : Word) (s : State) : (checkDriver info s).cmdErr = s.cmdErr := by unfold checkDriver; split <;> rfl
@[simp] theorem checkDriver_rxOverlong (info : Word) (s : State) : (checkDriver info s).rxOverlong = s.rxOverlong := by unfold checkDriver; split <;> rfl
@[simp] theorem checkDriver_pos (info : Word) (s : State) : (checkDriver info s).pos = s.pos := by unfold checkDriver; split <;> rfl
@[simp] theorem checkDriver_countSr (info : Word) (s : State) : (checkDriver info s).countSr = s.countSr := by unfold checkDriver; split <;> rfl
@[simp] theorem checkDriver_wordSr (info : Word) (s : State) : (checkDriver info s).wordSr = s.wordSr := by unfold checkDriver; split <;> rfl
@[simp] theorem checkDriver_trailing (info : Word) (s : State) : (checkDriver info s).trailing = s.trailing := by unfold checkDriver; split <;> rfl
@[simp] theorem checkDriver_declCount (info : Word) (s : State) : (checkDriver info s).declCount = s.declCount := by unfold checkDriver; split <;> rfl
@[simp] theorem checkDriver_len (info : Word) (s : State) : (checkDriver info s).len = s.len := by unfold checkDriver; split <;> rfl
@[simp] theorem checkDriver_maxBright (info : Word) (s : State) : (checkDriver info s).maxBright = s.maxBright := by unfold checkDriver; split <;> rfl
@[simp] theorem checkDriver_dynRange (info : Word) (s : State) : (checkDriver info s).dynRange = s.dynRange := by unfold checkDriver; split <;> rfl
@[simp] theorem checkDriver_timeIndex (info : Word) (s : State) : (checkDriver info s).timeIndex = s.timeIndex := by unfold checkDriver; split <;> rfl
@[simp] theorem checkDriver_pwm0Duty (info : Word) (s : State) : (checkDriver info s).pwm0Duty = s.pwm0Duty := by unfold checkDriver; split <;> rfl
@[simp] theorem checkDriver_pwm1Duty (info : Word) (s : State) : (checkDriver info s).pwm1Duty = s.pwm1Duty := by unfold checkDriver; split <;> rfl
@[simp] theorem checkDriver_tickCount (info : Word) (s : State) : (checkDriver info s).tickCount = s.tickCount := by unfold checkDriver; split <;> rfl
@[simp] theorem checkDriver_tblAddr (info : Word) (s : State) : (checkDriver info s).tblAddr = s.tblAddr := by unfold checkDriver; split <;> rfl
@[simp] theorem checkDriver_lineCount (info : Word) (s : State) : (checkDriver info s).lineCount = s.lineCount := by unfold checkDriver; split <;> rfl
@[simp] theorem checkDriver_lastCmd (info : Word) (s : State) : (checkDriver info s).lastCmd = s.lastCmd := by unfold checkDriver; split <;> rfl
@[simp] theorem checkDriver_fatalIe (info : Word) (s : State) : (checkDriver info s).fatalIe = s.fatalIe := by unfold checkDriver; split <;> rfl
@[simp] theorem checkDriver_sample (info : Word) (s : State) : (checkDriver info s).sample = s.sample := by unfold checkDriver; split <;> rfl
@[simp] theorem checkDriver_lut (info : Word) (s : State) : (checkDriver info s).lut = s.lut := by unfold checkDriver; split <;> rfl
@[simp] theorem checkDriver_lutValid (info : Word) (s : State) : (checkDriver info s).lutValid = s.lutValid := by unfold checkDriver; split <;> rfl
@[simp] theorem checkDriver_lineBuf (info : Word) (s : State) : (checkDriver info s).lineBuf = s.lineBuf := by unfold checkDriver; split <;> rfl
@[simp] theorem checkDriver_lineLen (info : Word) (s : State) : (checkDriver info s).lineLen = s.lineLen := by unfold checkDriver; split <;> rfl
@[simp] theorem checkDriver_lineOvf (info : Word) (s : State) : (checkDriver info s).lineOvf = s.lineOvf := by unfold checkDriver; split <;> rfl
@[simp] theorem checkDriver_linePend (info : Word) (s : State) : (checkDriver info s).linePend = s.linePend := by unfold checkDriver; split <;> rfl
@[simp] theorem checkDriver_txq (info : Word) (s : State) : (checkDriver info s).txq = s.txq := by unfold checkDriver; split <;> rfl
@[simp] theorem checkDriver_tb (info : Word) (s : State) : (checkDriver info s).tb = s.tb := by unfold checkDriver; split <;> rfl
@[simp] theorem checkDriver_tickPend (info : Word) (s : State) : (checkDriver info s).tickPend = s.tickPend := by unfold checkDriver; split <;> rfl
@[simp] theorem checkDriver_cp (info : Word) (s : State) : (checkDriver info s).cp = s.cp := by unfold checkDriver; split <;> rfl
@[simp] theorem checkDriver_presc (info : Word) (s : State) : (checkDriver info s).presc = s.presc := by unfold checkDriver; split <;> rfl
@[simp] theorem checkDriver_pwmCnt (info : Word) (s : State) : (checkDriver info s).pwmCnt = s.pwmCnt := by unfold checkDriver; split <;> rfl
@[simp] theorem checkDriver_active0 (info : Word) (s : State) : (checkDriver info s).active0 = s.active0 := by unfold checkDriver; split <;> rfl
@[simp] theorem checkDriver_active1 (info : Word) (s : State) : (checkDriver info s).active1 = s.active1 := by unfold checkDriver; split <;> rfl
@[simp] theorem checkDriver_busReady (info : Word) (s : State) : (checkDriver info s).busReady = s.busReady := by unfold checkDriver; split <;> rfl
@[simp] theorem checkDriver_busErr (info : Word) (s : State) : (checkDriver info s).busErr = s.busErr := by unfold checkDriver; split <;> rfl
@[simp] theorem checkDriver_busRdata (info : Word) (s : State) : (checkDriver info s).busRdata = s.busRdata := by unfold checkDriver; split <;> rfl
@[simp] theorem checkDriver_inp (info : Word) (s : State) : (checkDriver info s).inp = s.inp := by unfold checkDriver; split <;> rfl
@[simp] theorem checkDriver_schedule (info : Word) (s : State) : (checkDriver info s).schedule = s.schedule := by unfold checkDriver; split <;> rfl
@[simp] theorem checkDriver_envCount (info : Word) (s : State) : (checkDriver info s).envCount = s.envCount := by unfold checkDriver; split <;> rfl

@[simp] theorem State.takeTurn_cfg (s : State) : (s.takeTurn).cfg = s.cfg := by unfold State.takeTurn; split <;> rfl
@[simp] theorem State.takeTurn_life (s : State) : (s.takeTurn).life = s.life := by unfold State.takeTurn; split <;> rfl
@[simp] theorem State.takeTurn_trunc (s : State) : (s.takeTurn).trunc = s.trunc := by unfold State.takeTurn; split <;> rfl
@[simp] theorem State.takeTurn_relay (s : State) : (s.takeTurn).relay = s.relay := by unfold State.takeTurn; split <;> rfl
@[simp] theorem State.takeTurn_cmdErr (s : State) : (s.takeTurn).cmdErr = s.cmdErr := by unfold State.takeTurn; split <;> rfl
@[simp] theorem State.takeTurn_rxOverlong (s : State) : (s.takeTurn).rxOverlong = s.rxOverlong := by unfold State.takeTurn; split <;> rfl
@[simp] theorem State.takeTurn_errCode (s : State) : (s.takeTurn).errCode = s.errCode := by unfold State.takeTurn; split <;> rfl
@[simp] theorem State.takeTurn_errInfo (s : State) : (s.takeTurn).errInfo = s.errInfo := by unfold State.takeTurn; split <;> rfl
@[simp] theorem State.takeTurn_pos (s : State) : (s.takeTurn).pos = s.pos := by unfold State.takeTurn; split <;> rfl
@[simp] theorem State.takeTurn_countSr (s : State) : (s.takeTurn).countSr = s.countSr := by unfold State.takeTurn; split <;> rfl
@[simp] theorem State.takeTurn_wordSr (s : State) : (s.takeTurn).wordSr = s.wordSr := by unfold State.takeTurn; split <;> rfl
@[simp] theorem State.takeTurn_trailing (s : State) : (s.takeTurn).trailing = s.trailing := by unfold State.takeTurn; split <;> rfl
@[simp] theorem State.takeTurn_declCount (s : State) : (s.takeTurn).declCount = s.declCount := by unfold State.takeTurn; split <;> rfl
@[simp] theorem State.takeTurn_len (s : State) : (s.takeTurn).len = s.len := by unfold State.takeTurn; split <;> rfl
@[simp] theorem State.takeTurn_maxBright (s : State) : (s.takeTurn).maxBright = s.maxBright := by unfold State.takeTurn; split <;> rfl
@[simp] theorem State.takeTurn_dynRange (s : State) : (s.takeTurn).dynRange = s.dynRange := by unfold State.takeTurn; split <;> rfl
@[simp] theorem State.takeTurn_timeIndex (s : State) : (s.takeTurn).timeIndex = s.timeIndex := by unfold State.takeTurn; split <;> rfl
@[simp] theorem State.takeTurn_pwm0Duty (s : State) : (s.takeTurn).pwm0Duty = s.pwm0Duty := by unfold State.takeTurn; split <;> rfl
@[simp] theorem State.takeTurn_pwm1Duty (s : State) : (s.takeTurn).pwm1Duty = s.pwm1Duty := by unfold State.takeTurn; split <;> rfl
@[simp] theorem State.takeTurn_tickCount (s : State) : (s.takeTurn).tickCount = s.tickCount := by unfold State.takeTurn; split <;> rfl
@[simp] theorem State.takeTurn_tblAddr (s : State) : (s.takeTurn).tblAddr = s.tblAddr := by unfold State.takeTurn; split <;> rfl
@[simp] theorem State.takeTurn_lineCount (s : State) : (s.takeTurn).lineCount = s.lineCount := by unfold State.takeTurn; split <;> rfl
@[simp] theorem State.takeTurn_lastCmd (s : State) : (s.takeTurn).lastCmd = s.lastCmd := by unfold State.takeTurn; split <;> rfl
@[simp] theorem State.takeTurn_fatalIe (s : State) : (s.takeTurn).fatalIe = s.fatalIe := by unfold State.takeTurn; split <;> rfl
@[simp] theorem State.takeTurn_sample (s : State) : (s.takeTurn).sample = s.sample := by unfold State.takeTurn; split <;> rfl
@[simp] theorem State.takeTurn_lut (s : State) : (s.takeTurn).lut = s.lut := by unfold State.takeTurn; split <;> rfl
@[simp] theorem State.takeTurn_lutValid (s : State) : (s.takeTurn).lutValid = s.lutValid := by unfold State.takeTurn; split <;> rfl
@[simp] theorem State.takeTurn_lineBuf (s : State) : (s.takeTurn).lineBuf = s.lineBuf := by unfold State.takeTurn; split <;> rfl
@[simp] theorem State.takeTurn_lineLen (s : State) : (s.takeTurn).lineLen = s.lineLen := by unfold State.takeTurn; split <;> rfl
@[simp] theorem State.takeTurn_lineOvf (s : State) : (s.takeTurn).lineOvf = s.lineOvf := by unfold State.takeTurn; split <;> rfl
@[simp] theorem State.takeTurn_linePend (s : State) : (s.takeTurn).linePend = s.linePend := by unfold State.takeTurn; split <;> rfl
@[simp] theorem State.takeTurn_txq (s : State) : (s.takeTurn).txq = s.txq := by unfold State.takeTurn; split <;> rfl
@[simp] theorem State.takeTurn_tb (s : State) : (s.takeTurn).tb = s.tb := by unfold State.takeTurn; split <;> rfl
@[simp] theorem State.takeTurn_tickPend (s : State) : (s.takeTurn).tickPend = s.tickPend := by unfold State.takeTurn; split <;> rfl
@[simp] theorem State.takeTurn_cp (s : State) : (s.takeTurn).cp = s.cp := by unfold State.takeTurn; split <;> rfl
@[simp] theorem State.takeTurn_presc (s : State) : (s.takeTurn).presc = s.presc := by unfold State.takeTurn; split <;> rfl
@[simp] theorem State.takeTurn_pwmCnt (s : State) : (s.takeTurn).pwmCnt = s.pwmCnt := by unfold State.takeTurn; split <;> rfl
@[simp] theorem State.takeTurn_active0 (s : State) : (s.takeTurn).active0 = s.active0 := by unfold State.takeTurn; split <;> rfl
@[simp] theorem State.takeTurn_active1 (s : State) : (s.takeTurn).active1 = s.active1 := by unfold State.takeTurn; split <;> rfl
@[simp] theorem State.takeTurn_busReady (s : State) : (s.takeTurn).busReady = s.busReady := by unfold State.takeTurn; split <;> rfl
@[simp] theorem State.takeTurn_busErr (s : State) : (s.takeTurn).busErr = s.busErr := by unfold State.takeTurn; split <;> rfl
@[simp] theorem State.takeTurn_busRdata (s : State) : (s.takeTurn).busRdata = s.busRdata := by unfold State.takeTurn; split <;> rfl
@[simp] theorem State.takeTurn_inp (s : State) : (s.takeTurn).inp = s.nextTurn.inputs := by unfold State.takeTurn State.nextTurn; split <;> simp_all
@[simp] theorem State.takeTurn_schedule (s : State) : (s.takeTurn).schedule = s.schedule.tail := by unfold State.takeTurn; split <;> simp_all

/-- `pos` advances by one and saturates (R54, R96). -/
theorem advancePos_toNat (s : State) : (advancePos s).pos.toNat = min (s.pos.toNat + 1) (2 ^ 36 - 1) := by
  have hlt := s.pos.isLt
  rw [advancePos_pos]
  split
  · rename_i h; rw [h, BitVec.toNat_allOnes]; omega
  · rename_i h
    have hne : s.pos.toNat ≠ 2 ^ 36 - 1 := fun e => h (BitVec.eq_of_toNat_eq (by rw [BitVec.toNat_allOnes]; exact e))
    rw [BitVec.toNat_add, show (1 : BitVec 36).toNat = 1 from rfl]
    omega

end Sys2Proof.Machine
end

