-- ==== Sys2Proof/Laws/Ops.lean ====
section
/-! SUPPORT. For each shared operation, one lemma that says once everything it can do. -/

namespace Sys2Proof.Machine

/-- A completed write is the operation's next state with the bus response of a write. -/
theorem completeWrite_eq_next {r : Result} {t : State} :
    completeWrite r = .next t ↔ ∃ u, r = .next u ∧ t = respond 0 u := by
  cases r <;> simp [completeWrite, eq_comm]

@[simp] theorem completeWrite_next (u : State) : completeWrite (.next u) = .next (respond 0 u) := rfl

/-- Completing a write adds no fault. -/
theorem completeWrite_eq_fault {r : Result} {f : Fault} : completeWrite r = .fault f ↔ r = .fault f := by
  cases r <;> simp [completeWrite]

/-- A state-gated operation has its effect, or flags CMD_ERR and does nothing else. -/
theorem gated_eq (legal : Bool) (effect : State → Result) (s : State) :
    gated legal effect s = if legal = true then effect s else .next (flagCmdErr s) := rfl

/-- The driver check either leaves the state or enters FATAL with HW_WRITE. -/
theorem checkDriver_cases (info : Word) (s : State) :
    (s.inp.drvFault = false ∧ checkDriver info s = s) ∨
    (s.inp.drvFault = true ∧ checkDriver info s = enterFatal .hwWrite info s) := by
  unfold checkDriver; cases h : s.inp.drvFault <;> simp

/-- The assembly of a field as arithmetic (R96): the register shifted up by a byte, the new byte at its foot. -/
theorem shiftIn_eq (w : Word) (b : Byte) : shiftIn w b = w <<< 8 ||| b.setWidth 32 := by
  apply BitVec.eq_of_getLsbD_eq
  intro i hi
  unfold shiftIn
  erw [BitVec.getLsbD_append]
  by_cases h : i < 8
  · simp [h, hi]
  · simp [h, hi, BitVec.getLsbD_of_ge b i (by omega), show i - 8 < 24 by omega, BitVec.getLsbD_eq_getElem (by omega : i - 8 < 32)]

/-- Everything a payload byte can do (R96). -/
theorem payloadByte_cases {b : Byte} {s : State} {r : Result} (h : payloadByte b s = r) :
    let k := (s.pos.toNat - 4) / 4
    let j := (s.pos.toNat - 4) % 4
    let w := shiftIn s.wordSr b
    (k < s.len.toNat ∧ j = 3 ∧ k < s.cfg.dataCap ∧
        r = .next (advancePos { s with wordSr := w, sample := s.sample.write k w })) ∨
    (k < s.len.toNat ∧ j = 3 ∧ s.cfg.dataCap ≤ k ∧ r = .fault (.sampleIndex k)) ∨
    (k < s.len.toNat ∧ j ≠ 3 ∧ r = .next (advancePos { s with wordSr := w })) ∨
    (s.len.toNat ≤ k ∧ s.declCount.toNat ≤ k ∧ r = .next (advancePos { s with trailing := true })) ∨
    (s.len.toNat ≤ k ∧ k < s.declCount.toNat ∧ r = .next (advancePos s)) := by
  unfold payloadByte at h
  simp only at h ⊢
  by_cases h1 : (s.pos.toNat - 4) / 4 < s.len.toNat
  · by_cases h2 : (s.pos.toNat - 4) % 4 = 3
    · by_cases h3 : (s.pos.toNat - 4) / 4 < s.cfg.dataCap
      · simp only [h1, h2, h3, if_true] at h; exact .inl ⟨h1, h2, h3, h.symm⟩
      · simp only [h1, h2, h3, if_true, if_false] at h; exact .inr (.inl ⟨h1, h2, by omega, h.symm⟩)
    · simp only [h1, h2, if_true, if_false] at h; exact .inr (.inr (.inl ⟨h1, h2, h.symm⟩))
  · by_cases h2 : s.declCount.toNat ≤ (s.pos.toNat - 4) / 4
    · simp only [h1, h2, if_true, if_false] at h; exact .inr (.inr (.inr (.inl ⟨by omega, h2, h.symm⟩)))
    · simp only [h1, h2, if_false] at h; exact .inr (.inr (.inr (.inr ⟨by omega, by omega, h.symm⟩)))

/-- The commit outcome (R97): LOADED exactly when no check holds. -/
theorem commitError_eq_none {s : State} :
    commitError s = none ↔
      4 ≤ s.pos.toNat ∧ s.declCount ≠ 0 ∧ 4 + 4 * s.len.toNat ≤ s.pos.toNat ∧ s.trailing = false := by
  unfold commitError
  split
  · simp; omega
  · split
    · simp_all
    · split
      · simp; omega
      · split
        · simp_all
        · simp_all

/-- Everything the dispatch step can do with a decoded line (R126). -/
theorem dispatchAs_cases (c : Command) (t : List Byte) (ovf : Bool) (s : State) :
    (s.canDispatch t = false ∧ dispatchAs c t ovf s = s) ∨
    (s.life = .running ∧ s.linePend = true ∧ 16 + t.length ≤ s.txFree ∧
      dispatchAs c t ovf s = applyCommand c (finishLine c t ovf s)) := by
  unfold dispatchAs
  cases h : s.canDispatch t
  · simp
  · right
    simp only [State.canDispatch, Bool.and_eq_true, beq_iff_eq, decide_eq_true_eq] at h
    exact ⟨h.1.1, h.1.2, h.2, by simp⟩

/-- What a command's relay write can do: it touches RELAY, and STATE, ERR_CODE and ERR_INFO on a driver failure. -/
theorem applyCommand_cases (c : Command) (s : State) :
    ∃ r : Bool, (applyCommand c s = { s with relay := r }) ∨
      (s.inp.drvFault = true ∧ c ≠ .unrecognized ∧ applyCommand c s = enterFatal .hwWrite 1 { s with relay := r }) := by
  cases c
  · refine ⟨true, ?_⟩
    rcases checkDriver_cases 1 { s with relay := true } with h | h
    · exact .inl h.2
    · exact .inr ⟨h.1, by simp, h.2⟩
  · refine ⟨false, ?_⟩
    rcases checkDriver_cases 1 { s with relay := false } with h | h
    · exact .inl h.2
    · exact .inr ⟨h.1, by simp, h.2⟩
  · exact ⟨s.relay, .inl rfl⟩

/-- What a LUT_DATA read answers, and when it stops (R141). -/
theorem lutWindow_eq (s : State) :
    s.lutWindow = if s.lutValid = true ∧ s.tblAddr.toNat < s.len.toNat then
      (if s.tblAddr.toNat < s.cfg.dataCap then some ((s.lut.read s.tblAddr.toNat).setWidth 32) else none) else some 0 := by
  unfold State.lutWindow State.lutAt
  split
  · split <;> rfl
  · rfl

/-- What a SAMPLE_DATA read answers, and when it stops (R142). -/
theorem sampleWindow_eq (s : State) :
    s.sampleWindow = if s.tblAddr.toNat < s.len.toNat ∧ 4 + 4 * (s.tblAddr.toNat + 1) ≤ s.pos.toNat then
      (if s.tblAddr.toNat < s.cfg.dataCap then some (s.sample.read s.tblAddr.toNat) else none) else some 0 := rfl

/-- The playback timebase touches `tb` and `tick_pend` only (R120). -/
theorem clockTimebase_eq (s : State) :
    clockTimebase s = { s with
      tb := if s.life = .running then (if s.tb.toNat = s.cfg.tickCycles - 1 then 0 else s.tb + 1) else s.tb,
      tickPend := if s.life = .running ∧ s.tb.toNat = s.cfg.tickCycles - 1 then true else s.tickPend } := by
  unfold clockTimebase
  by_cases h1 : s.life = .running <;> by_cases h2 : s.tb.toNat = s.cfg.tickCycles - 1 <;> simp [h1, h2]

/-- The poll timer touches `cp` only (R130). -/
theorem clockPoll_eq (s : State) :
    clockPoll s = { s with
      cp := if s.life = .running then (if s.cp ≠ 0 then s.cp - 1 else if s.linePend = true then s.cp
        else BitVec.ofNat 32 s.cfg.cmdIdleCycles) else s.cp } := by
  unfold clockPoll
  split
  · split
    · rfl
    · split <;> rfl
  · rfl

/-- The PWM generator touches its own counters and the active duties only (R121). -/
theorem clockPwm_eq (s : State) :
    clockPwm s = { s with
      presc := if s.presc.toNat = s.cfg.pwmPrescale - 1 then 0 else s.presc + 1,
      pwmCnt := if s.presc.toNat = s.cfg.pwmPrescale - 1 then (if s.pwmCnt = 65534 then 0 else s.pwmCnt + 1)
        else s.pwmCnt,
      active0 := if s.presc.toNat = s.cfg.pwmPrescale - 1 ∧ s.pwmCnt = 65534 then s.pwm0Duty else s.active0,
      active1 := if s.presc.toNat = s.cfg.pwmPrescale - 1 ∧ s.pwmCnt = 65534 then s.pwm1Duty else s.active1 } := by
  unfold clockPwm
  by_cases h1 : s.presc.toNat = s.cfg.pwmPrescale - 1 <;> by_cases h2 : s.pwmCnt = 65534 <;>
    simp only [h1, h2, if_true, if_false, true_and, false_and, and_self]

/-- What a step can do: run the fetched operation, run a clock cycle, or only use up the turn. -/
theorem step_cases {s : State} {r : Result} (h : step s = r) :
    (∃ i, fetch s.nextTurn.agent s.nextTurn.inputs = .run i ∧ r = exec i s.takeTurn) ∨
    (fetch s.nextTurn.agent s.nextTurn.inputs = .clock ∧ r = .next (clockCycle s.takeTurn)) ∨
    (fetch s.nextTurn.agent s.nextTurn.inputs = .idle ∧ r = .next s.takeTurn) := by
  unfold step at h
  split at h
  · rename_i i heq; exact .inl ⟨i, heq, h.symm⟩
  · rename_i heq; exact .inr (.inl ⟨heq, h.symm⟩)
  · rename_i heq; exact .inr (.inr ⟨heq, h.symm⟩)

end Sys2Proof.Machine
end

