-- ==== Sys2Proof/Laws/PerInstr.lean ====
section
/-! SUPPORT. A statement about every operation as syntax, one lemma per constructor: an operation has a word exactly when the
opcode table gives its row one, and the word is in the row's format (R79). -/

namespace Sys2Proof.Laws

/-- The formats of spec/opcode_table.json; a STEP row is "not decoded from any word". -/
inductive Format
  | busw | busr | line | step
deriving DecidableEq, Repr

/-- The format the table gives an operation's row. -/
def formatOf : Instr → Format
  | .busMisalignedW _ _ _ | .nop | .loadCommit | .scale | .start | .cmdIllegal _ | .wrStatus _ | .ldb _ _
  | .wrMaxBright _ | .wrDynRange _ | .wrTblAddr _ | .wrIrqEn _ | .busUnmappedW _ _ | .wrRo _ _
  | .busPartial _ _ _ => .busw
  | .busMisalignedR _ | .busUnmappedR _ | .rdWo _ | .rdLut | .rdSample | .rd _ => .busr
  | .lineOn | .lineOff | .lineOther _ _ => .line
  | .scalerStep | .tickDue | .tickStep | .rxAccept _ | .dispatch | .txDepart | .pwmReload | .reset => .step

/-- The format of a word. -/
def wireFormat : Wire → Format
  | .busw _ => .busw
  | .busr _ => .busr
  | .line _ _ => .line

namespace EncodesToItsFormat

/-- The encoder gives a word of the row's format, and no word for a STEP row. -/
def Statement (i : Instr) : Prop := ((encode i).map wireFormat).getD .step = formatOf i

theorem busMisalignedW (wstrb : BitVec 4) (addr : BitVec 8) (wdata : Word) : Statement (.busMisalignedW wstrb addr wdata) := rfl
theorem busMisalignedR (addr : BitVec 8) : Statement (.busMisalignedR addr) := rfl
theorem nop : Statement .nop := rfl
theorem loadCommit : Statement .loadCommit := rfl
theorem scale : Statement .scale := rfl
theorem start : Statement .start := rfl
theorem cmdIllegal (v : Word) : Statement (.cmdIllegal v) := rfl
theorem wrStatus (v : Word) : Statement (.wrStatus v) := rfl
theorem ldb (b : Byte) (ignored : BitVec 24) : Statement (.ldb b ignored) := rfl
theorem wrMaxBright (v : Word) : Statement (.wrMaxBright v) := rfl
theorem wrDynRange (v : Word) : Statement (.wrDynRange v) := rfl
theorem wrTblAddr (v : Word) : Statement (.wrTblAddr v) := rfl
theorem wrIrqEn (v : Word) : Statement (.wrIrqEn v) := rfl
theorem busUnmappedW (addr : BitVec 8) (wdata : Word) : Statement (.busUnmappedW addr wdata) := rfl
theorem busUnmappedR (addr : BitVec 8) : Statement (.busUnmappedR addr) := rfl
theorem wrRo (r : Reg) (wdata : Word) : Statement (.wrRo r wdata) := rfl
theorem busPartial (wstrb : BitVec 4) (addr : BitVec 8) (wdata : Word) : Statement (.busPartial wstrb addr wdata) := rfl
theorem rdWo (r : Reg) : Statement (.rdWo r) := rfl
theorem rdLut : Statement .rdLut := rfl
theorem rdSample : Statement .rdSample := rfl
theorem rd (r : Reg) : Statement (.rd r) := rfl
theorem lineOn : Statement .lineOn := rfl
theorem lineOff : Statement .lineOff := rfl
theorem lineOther (text : List Byte) (ovf : Bool) : Statement (.lineOther text ovf) := rfl
theorem scalerStep : Statement .scalerStep := rfl
theorem tickDue : Statement .tickDue := rfl
theorem tickStep : Statement .tickStep := rfl
theorem rxAccept (b : Byte) : Statement (.rxAccept b) := rfl
theorem dispatch : Statement .dispatch := rfl
theorem txDepart : Statement .txDepart := rfl
theorem pwmReload : Statement .pwmReload := rfl
theorem reset : Statement .reset := rfl

end EncodesToItsFormat

end Sys2Proof.Laws
end

