-- ==== Sys2Proof/Laws/Scaler.lean ====
section
/-! SUPPORT. What each part of the scaler step answers (R105 to R113). -/

namespace Sys2Proof.Machine

/-- A pair of values that bounds every value of a list and stands in it. -/
abbrev IsExtremes (mm : F64 × F64) (xs : List F64) : Prop :=
  mm.1 ∈ xs ∧ mm.2 ∈ xs ∧ ∀ x ∈ xs, mm.1.units ≤ x.units ∧ x.units ≤ mm.2.units

/-- The fold of R108 finds a minimum and a maximum. -/
theorem extremes_spec (x0 : F64) (xs : List F64) : IsExtremes (extremes x0 xs) (x0 :: xs) := by
  unfold extremes
  suffices ∀ (ys zs : List F64) (mm : F64 × F64), IsExtremes mm zs →
      IsExtremes (ys.foldl (fun mm x => (if x.lt mm.1 then x else mm.1, if mm.2.lt x then x else mm.2)) mm) (zs ++ ys) by
    exact this xs [x0] (x0, x0) ⟨by simp, by simp, by simp⟩
  intro ys
  induction ys with
  | nil => intro zs mm h; simpa using h
  | cons y ys ih =>
    intro zs mm ⟨h1, h2, h3⟩
    rw [List.foldl_cons, show zs ++ y :: ys = zs ++ [y] ++ ys by simp]
    apply ih
    refine ⟨?_, ?_, ?_⟩
    · by_cases h : y.lt mm.1 = true <;> simp [h, h1]
    · by_cases h : mm.2.lt y = true <;> simp [h, h2]
    · intro x hx
      simp only [F64.lt, decide_eq_true_eq]
      rw [List.mem_append, List.mem_singleton] at hx
      rcases hx with hx | rfl
      · have := h3 x hx
        constructor <;> split <;> omega
      · constructor <;> split <;> omega

/-- Values with the same units are the same value. -/
theorem F64.ext_units {x y : F64} (h : x.units = y.units) : x = y := by cases x; cases y; cases h; rfl

/-- The extremes of a list are determined by it. -/
theorem IsExtremes.unique {mm nn : F64 × F64} {xs : List F64} (h : IsExtremes mm xs) (h' : IsExtremes nn xs) : mm = nn := by
  have h1 := (h.2.2 _ h'.1).1
  have h2 := (h'.2.2 _ h.1).1
  have h3 := (h.2.2 _ h'.2.1).2
  have h4 := (h'.2.2 _ h.2.1).2
  exact Prod.ext (F64.ext_units (by omega)) (F64.ext_units (by omega))

/-- The configuration check passes exactly when both values are in range (R106). -/
theorem cfgBad_eq_zero (m d : Word) : cfgBad m d = 0 ↔ cfgOk m = true ∧ cfgOk d = true := by
  unfold cfgBad; cases cfgOk m <;> cases cfgOk d <;> decide

/-- No sample is flagged exactly when all are finite (R107). -/
theorem firstNonfinite_eq_none {ws : List Word} : firstNonfinite ws = none ↔ ∀ w ∈ ws, isFinite32 w = true := by
  simp [firstNonfinite, List.findIdx?_eq_none_iff]

/-- The flagged sample is the first that is not finite (R107). -/
theorem firstNonfinite_eq_some {ws : List Word} {i : Nat} :
    firstNonfinite ws = some i ↔ ∃ h : i < ws.length, isFinite32 ws[i] = false ∧
      ∀ j (hj : j < i), isFinite32 (ws[j]'(by omega)) = true := by
  simp [firstNonfinite, List.findIdx?_eq_some_iff_getElem]

/-- A clamped value is in range, and its number is the clamped integer (R113). -/
theorem clampDuty_toNat (v : F64) : ((clampDuty v).toNat : Int) = min (max v.trunc 0) 65535 := by
  unfold clampDuty
  rw [BitVec.toNat_ofNat, Nat.mod_eq_of_lt (by omega)]
  omega

/-- Everything the check and the build on a series can do (R107, R109, R113). -/
theorem scaleSamples_cases (w : Word) (ws : List Word) (s : State) :
    (∃ i, firstNonfinite (w :: ws) = some i ∧
      scaleSamples w ws s = enterFatal .nonfiniteSample (BitVec.ofNat 32 i) s) ∨
    (firstNonfinite (w :: ws) = none ∧ lutOf s.cfg.shiftForm s.maxBright s.dynRange w ws = none ∧
      scaleSamples w ws s = enterFatal .degenerate s.len s) ∨
    ∃ duties, firstNonfinite (w :: ws) = none ∧ lutOf s.cfg.shiftForm s.maxBright s.dynRange w ws = some duties ∧
      scaleSamples w ws s = { s with lut := s.lut.writeList 0 duties, lutValid := true, life := .scaled } := by
  unfold scaleSamples
  split
  · exact .inl ⟨_, ‹_›, rfl⟩
  · split
    · exact .inr (.inl ⟨‹_›, ‹_›, rfl⟩)
    · exact .inr (.inr ⟨_, ‹_›, ‹_›, rfl⟩)

/-- A series is degenerate exactly when all its values are equal (R109). -/
theorem lutOf_eq_none {form : ShiftForm} {mb dr w : Word} {ws : List Word} :
    lutOf form mb dr w ws = none ↔ ∀ x ∈ ws, F64.ofBin32 x = F64.ofBin32 w := by
  have h := extremes_spec (F64.ofBin32 w) (ws.map F64.ofBin32)
  unfold lutOf
  simp only [F64.eq]
  generalize extremes _ _ = mm at *
  constructor
  · intro hh
    have he : mm.2.units = mm.1.units := by by_contra hc; simp [hc] at hh
    intro x hx
    have h1 := h.2.2 _ (List.mem_cons_of_mem _ (List.mem_map_of_mem hx))
    have h2 := h.2.2 _ List.mem_cons_self
    exact F64.ext_units (by omega)
  · intro hh
    have : ∀ y ∈ F64.ofBin32 w :: ws.map F64.ofBin32, y = F64.ofBin32 w := by
      intro y hy
      simp only [List.mem_cons, List.mem_map] at hy
      rcases hy with rfl | ⟨x, hx, rfl⟩
      · rfl
      · exact hh x hx
    simp [this _ h.1, this _ h.2.1]

/-- The LUT of a series that is not degenerate, by its extremes (R108, R110 to R113). -/
theorem lutOf_eq_some {form : ShiftForm} {mb dr w : Word} {ws : List Word} {mm : F64 × F64}
    (h : IsExtremes mm (F64.ofBin32 w :: ws.map F64.ofBin32)) (hne : mm.2 ≠ mm.1) :
    lutOf form mb dr w ws = some ((w :: ws).map fun x =>
      clampDuty (scaledValue (shiftTerm form mb dr mm.1 (scaleFactor mb dr mm.1 mm.2)) (scaleFactor mb dr mm.1 mm.2)
        (F64.ofBin32 x))) := by
  have := (extremes_spec (F64.ofBin32 w) (ws.map F64.ofBin32)).unique h
  unfold lutOf
  simp only [this, F64.eq]
  rw [if_neg]
  simpa using fun hh => hne (F64.ext_units hh)

/-- Every LUT has one entry for each sample. -/
theorem lutOf_length {form : ShiftForm} {mb dr w : Word} {ws : List Word} {ds : List Duty}
    (h : lutOf form mb dr w ws = some ds) : ds.length = ws.length + 1 := by
  unfold lutOf at h
  simp only at h
  split at h
  · cases h
  · cases h; simp

/-- Everything the scaler step can do (R105). -/
theorem execScalerStep_cases (s : State) :
    (s.life ≠ .scaling ∧ execScalerStep s = .next s) ∨
    (s.life = .scaling ∧ ¬(cfgOk s.maxBright = true ∧ cfgOk s.dynRange = true) ∧
      execScalerStep s = .next (enterFatal .cfgRange (cfgBad s.maxBright s.dynRange) s)) ∨
    (s.life = .scaling ∧ s.cfg.dataCap < s.len.toNat ∧ execScalerStep s = .fault (.sampleIndex s.cfg.dataCap)) ∨
    (s.life = .scaling ∧ s.len = 0 ∧ execScalerStep s = .fault .emptySeries) ∨
    ∃ w ws, s.life = .scaling ∧ cfgOk s.maxBright = true ∧ cfgOk s.dynRange = true ∧ s.len.toNat ≤ s.cfg.dataCap ∧
      w :: ws = (List.range s.len.toNat).map s.sample.read ∧ execScalerStep s = .next (scaleSamples w ws s) := by
  unfold execScalerStep
  by_cases h1 : s.life = .scaling
  · by_cases h2 : cfgOk s.maxBright = true ∧ cfgOk s.dynRange = true
    · have h3 := (cfgBad_eq_zero _ _).2 h2
      by_cases h4 : s.len.toNat ≤ s.cfg.dataCap
      · cases h5 : (List.range s.len.toNat).map s.sample.read with
        | nil =>
          refine .inr (.inr (.inr (.inl ⟨h1, ?_, ?_⟩)))
          · have : s.len.toNat = 0 := by simpa using congrArg List.length h5
            exact BitVec.eq_of_toNat_eq (by simpa using this)
          · simp [h1, h3, State.samples, h4, h5]
        | cons w ws =>
          refine .inr (.inr (.inr (.inr ⟨w, ws, h1, h2.1, h2.2, h4, rfl, ?_⟩)))
          simp [h1, h3, State.samples, h4, h5]
      · exact .inr (.inr (.inl ⟨h1, by omega, by simp [h1, h3, State.samples, h4]⟩))
    · have h3 := mt (cfgBad_eq_zero _ _).1 h2
      exact .inr (.inl ⟨h1, h2, by rw [if_pos h1, if_pos h3]⟩)
  · exact .inl ⟨h1, by simp [h1]⟩

end Sys2Proof.Machine
end

