-- ==== Sys2Proof/Tests/Slice0.lean ====
section
/-! SUPPORT. Tests: ill-formed operands are refused, words written out from 30_encoding.md decode to their operations, one
step gives what a vector of 95_test_vectors.md says, and every statement with hypotheses has a case that meets them. -/

namespace Sys2Proof.Tests

open Sys2Proof Sys2Proof.Machine

/-! ### WellFormed: each check refuses an ill-formed term -/

theorem test_wf_misalignedW : (Instr.busMisalignedW 0xF 0x08 0).wf = false := by decide
theorem test_wf_misalignedR : (Instr.busMisalignedR 0x60).wf = false := by decide
theorem test_wf_partial_full_strobe : (Instr.busPartial 0xF 0x14 0).wf = false := by decide
theorem test_wf_partial_misaligned : (Instr.busPartial 0x1 0x15 0).wf = false := by decide
theorem test_wf_unmapped_mapped : (Instr.busUnmappedW 0x5C 0).wf = false := by decide
theorem test_wf_unmapped_misaligned : (Instr.busUnmappedR 0x61).wf = false := by decide
theorem test_wf_cmdIllegal : (Instr.cmdIllegal 3).wf = false := by decide
theorem test_wf_wrRo : (Instr.wrRo .tblAddr 0).wf = false := by decide
theorem test_wf_rdWo : (Instr.rdWo .status).wf = false := by decide
theorem test_wf_rd : (Instr.rd .lutData).wf = false := by decide
theorem test_wf_text_untrimmed : (Instr.lineOther [0x20, 0x61] false).wf = false := by decide
theorem test_wf_text_with_lf : (Instr.lineOther [0x61, 0x0A, 0x61] false).wf = false := by decide
theorem test_wf_text_is_command : (Instr.lineOther [0x6F, 0x6E] false).wf = false := by decide

/-! ### Decoding: words written out from R80 to R83, R89 and R91 -/

/-- R91, write words: strobe, offset, data. -/
theorem test_decode_writes :
    decodeTableWord 48 0xF0500000002 = some (.busMisalignedW 0xF 0x05 2) ∧
    decodeTableWord 48 0xE6000000000 = some (.busPartial 0xE 0x60 0) ∧
    decodeTableWord 48 0xF6000000000 = some (.busUnmappedW 0x60 0) ∧
    decodeTableWord 48 0xF0400000000 = some .nop ∧ decodeTableWord 48 0xF0400000001 = some .loadCommit ∧
    decodeTableWord 48 0xF0400000002 = some .scale ∧ decodeTableWord 48 0xF0400000003 = some .start ∧
    decodeTableWord 48 0xF0400000103 = some (.cmdIllegal 0x103) ∧
    decodeTableWord 48 0xF0800000100 = some (.wrStatus 0x100) ∧
    decodeTableWord 48 0xF14FFFFFF3F = some (.ldb 0x3F 0xFFFFFF) ∧
    decodeTableWord 48 0xF243F000000 = some (.wrMaxBright 0x3F000000) ∧
    decodeTableWord 48 0xF283FC00000 = some (.wrDynRange 0x3FC00000) ∧
    decodeTableWord 48 0xF3C00000001 = some (.wrTblAddr 1) ∧ decodeTableWord 48 0xF50FFFFFFFF = some (.wrIrqEn 0xFFFFFFFF) ∧
    decodeTableWord 48 0xF3000001234 = some (.wrRo .pwm0Duty 0x1234) := by decide

/-- R91, read words. -/
theorem test_decode_reads :
    decodeTableWord 8 0x09 = some (.busMisalignedR 0x09) ∧ decodeTableWord 8 0xFC = some (.busUnmappedR 0xFC) ∧
    decodeTableWord 8 0x14 = some (.rdWo .loadData) ∧ decodeTableWord 8 0x40 = some .rdLut ∧
    decodeTableWord 8 0x44 = some .rdSample ∧ decodeTableWord 8 0x5C = some (.rd .tickCycles) := by decide

/-- R89, control lines: DV1, DV3, DV8, DV17. -/
theorem test_decode_lines :
    decodeTableWord 16 0x6F6E = some .lineOn ∧ decode (.line [0x09, 0x6F, 0x66, 0x66, 0x20, 0x20, 0x0D] false) = .lineOff ∧
    decode (.line [0x6F, 0x6E, 0x6F, 0x66, 0x66] false) = .lineOther [0x6F, 0x6E, 0x6F, 0x66, 0x66] false ∧
    decode (.line [0x6F, 0x66, 0x66, 0x20] true) = .lineOther [0x6F, 0x66, 0x66] true := by decide

/-- A number of more than 44 bits is no write word. -/
theorem test_decode_beyond : decodeTableWord 48 0x100000000000 = none := by decide

/-! ### One step at a time: expected values from 95_test_vectors.md -/

/-- What a next state shows. -/
def after {α : Type} (r : Result) (f : State → α) : Option α :=
  match r with
  | .next t => some (f t)
  | _ => none

/-- LOADED with the series [0.0, 1.0] (the waveform of P4). -/
def loaded : State := { State.reset with life := .loaded, pos := 12, declCount := 2, len := 2, sample := [(1, 0x3F800000)] }

/-- SCALING, as SCALE leaves it. -/
def scaling : State := { loaded with life := .scaling }

/-- SCALED with the LUT [0, 65535] of P4. -/
def scaled : State := { loaded with life := .scaled, lut := [(1, 65535)], lutValid := true }

/-- RUNNING, as START leaves it. -/
def running : State := { scaled with life := .running, tickCount := 1 }

/-- RUNNING with a complete line waiting. -/
def withLine (bs : List Byte) (ovf : Bool) : State :=
  { running with lineBuf := Mem.writeList (w := 8) [] 0 bs, lineLen := BitVec.ofNat 16 bs.length, lineOvf := ovf,
                 linePend := true }

/-- FATAL as SV15 leaves it: CFG_RANGE, information word 1. -/
def fatal : State := enterFatal .cfgRange 1 loaded

/-- The same state with the output driver failing (`@FAULT`). -/
def faulty (s : State) : State := { s with inp := { s.inp with drvFault := true } }

theorem test_misaligned_write_HV8 : after (exec (.busMisalignedW 0xF 0x05 2) loaded) (fun t => (t.busErr, t.life)) =
    some (true, .loaded) := by decide
theorem test_misaligned_read_HV6 : after (exec (.busMisalignedR 0x09) loaded) (fun t => (t.busErr, t.busRdata)) =
    some (true, 0) := by decide
theorem test_partial_HV9 : after (exec (.busPartial 0x1 0x14 0xAA) State.reset) (fun t => (t.busErr, t.pos)) =
    some (true, 0) := by decide
theorem test_unmapped_write_HV13 : after (exec (.busUnmappedW 0x60 0) State.reset) (fun t => t.busErr) = some true := by
  decide
theorem test_unmapped_read_HV7 : after (exec (.busUnmappedR 0xFC) State.reset) (fun t => (t.busErr, t.busRdata)) =
    some (true, 0) := by decide
theorem test_rd_status_HV2 : after (exec (.rd .status) State.reset) (fun t => t.busRdata) = some 0x400 := by decide
theorem test_rd_params_HV4 : after (exec (.rd .params) State.reset) (fun t => t.busRdata) = some 0x40 := by decide
theorem test_rdWo_HV5 : after (exec (.rdWo .cmd) { State.reset with busRdata := 7 }) (fun t => (t.busErr, t.busRdata)) =
    some (false, 0) := by decide
theorem test_rdLut_HV21 : after (exec .rdLut { scaled with tblAddr := 1 }) (fun t => t.busRdata) = some 0xFFFF := by decide
theorem test_rdLut_at_len_HV21 : after (exec .rdLut { scaled with tblAddr := 2 }) (fun t => t.busRdata) = some 0 := by
  decide
theorem test_rdSample_LV12 : after (exec .rdSample { State.reset with
    len := 2, declCount := 2, pos := 8, sample := [(0, 0x40490FDB)] }) (fun t => t.busRdata) = some 0x40490FDB := by decide
theorem test_rdSample_incomplete_LV12 : after (exec .rdSample { State.reset with
    len := 2, declCount := 2, pos := 7, sample := [(0, 0x40490FDB)] }) (fun t => t.busRdata) = some 0 := by decide
theorem test_wrRo_PV6 : after (exec (.wrRo .pwm0Duty 0x1234) running) (fun t => (t.pwm0Duty, t.cmdErr)) =
    some (0, false) := by decide
theorem test_wrStatus_HV17 : after (exec (.wrStatus 0xFFFFFFFF) { loaded with cmdErr := true, rxOverlong := true })
    (fun t => t.statusWord) = some 0x401 := by decide
theorem test_wrTblAddr_HV20 : after (exec (.wrTblAddr 0xFFFFFFFF) loaded) (fun t => (t.tblAddr, t.readValue .lutData)) =
    some (0xFFFFFFFF, 0) := by decide
theorem test_wrIrqEn_HV22 : after (exec (.wrIrqEn 0xFFFFFFFF) State.reset) (fun t => t.readValue .irqEn) = some 1 := by
  decide
theorem test_wrIrqEn_EV2 : after (exec (.wrIrqEn 0) { fatal with fatalIe := true }) (fun t => (t.irq, t.statusWord)) =
    some (false, 0x407) := by decide
theorem test_nop_HV19 : after (exec .nop fatal) (fun t => t.statusWord) = some 0x407 := by decide
theorem test_cmdIllegal_HV14 : after (exec (.cmdIllegal 4) State.reset) (fun t => t.statusWord) = some 0x500 := by decide
theorem test_wrMaxBright_SV26 : after (exec (.wrMaxBright 0x3F000000) loaded) (fun t => (t.maxBright, t.cmdErr)) =
    some (0x3F000000, false) := by decide
theorem test_wrDynRange_SV27 : after (exec (.wrDynRange 0x3F000000) scaling) (fun t => (t.dynRange, t.cmdErr)) =
    some (0, true) := by decide
theorem test_ldb_LV13 : after (exec (.ldb 0x3F 0xFFFFFF) State.reset) (fun t => (t.pos, t.countSr)) = some (1, 0x3F) := by
  decide
theorem test_ldb_completes_sample_LV12 : after (exec (.ldb 0xDB 0) { State.reset with
    len := 2, declCount := 2, pos := 7, wordSr := 0x40490F }) (fun t => t.sample) = some [(0, 0x40490FDB)] := by decide
theorem test_loadCommit_LV2 : after (exec .loadCommit State.reset) (fun t => (t.statusWord, t.errCode, t.errInfo)) =
    some (0x407, 1, 0) := by decide
theorem test_loadCommit_LV8 : after (exec .loadCommit { State.reset with
    len := 3, declCount := 3, pos := 17, trailing := true }) (fun t => (t.statusWord, t.errCode, t.errInfo)) =
    some (0x407, 4, 17) := by decide
theorem test_scale_R104 : after (exec .scale loaded) (fun t => t.statusWord) = some 0x40A := by decide
theorem test_scale_SV28 : after (exec .scale State.reset) (fun t => t.statusWord) = some 0x500 := by decide
/-- W1 and SV1: the samples 1.0, 2.0, 3.0 give [0, 32767, 65535]. -/
theorem test_scalerStep_SV1 : after (exec .scalerStep { scaling with
    len := 3, sample := [(0, 0x3F800000), (1, 0x40000000), (2, 0x40400000)] }) (fun t => (t.statusWord, t.lut)) =
    some (0x483, [(1, 32767), (2, 65535)]) := by decide +kernel
/-- SV13: binary64 rounding moves 0.7 to 65534. -/
theorem test_scalerStep_SV13 : after (exec .scalerStep { scaling with
    dynRange := 0x3DCCCCCD, sample := [(0, 0x3DCCCCCD), (1, 0x3F333333)] }) (fun t => t.lut) =
    some [(0, 6553), (1, 65534)] := by decide +kernel
theorem test_start_PV1 : after (exec .start scaled) (fun t => (t.statusWord, t.timeIndex, t.tickCount)) =
    some (0x484, 0, 1) := by decide
theorem test_start_PV9 : after (exec .start (faulty scaled)) (fun t => (t.statusWord, t.tickCount, t.errCode, t.errInfo)) =
    some (0x487, 1, 8, 0) := by decide
theorem test_tickDue_R120 : after (exec .tickDue running) (fun t => t.tickPend) = some true := by decide
theorem test_tickStep_PV11 : after (exec .tickStep { running with tickPend := true })
    (fun t => (t.timeIndex, t.pwm0Duty, t.pwm1Duty, t.tickCount)) = some (1, 65535, 65535, 2) := by decide
theorem test_tickStep_wraps : after (exec .tickStep { running with tickPend := true, timeIndex := 1 })
    (fun t => (t.timeIndex, t.pwm0Duty, t.tickPend)) = some (0, 0, false) := by decide
theorem test_pwmReload_PV16 : after (exec .pwmReload { running with pwm0Duty := 32767, pwm1Duty := 32767 })
    (fun t => (t.active0, t.active1)) = some (32767, 32767) := by decide
theorem test_rxAccept_content : after (exec (.rxAccept 0x6F) running) (fun t => (t.lineBuf, t.lineLen, t.linePend)) =
    some ([(0, 0x6F)], 1, false) := by decide
theorem test_rxAccept_DV19 : after (exec (.rxAccept 0x6F) (withLine [0x6F, 0x6E] false)) (fun t => (t.lineLen, t.rxReady)) =
    some (2, false) := by decide
theorem test_dispatch_DV4 : after (exec .dispatch (withLine [0x20, 0x6F, 0x6E, 0x20] false))
    (fun t => (t.relay, t.lastCmd, t.txq.drop 15)) = some (true, 1, [0x6F, 0x6E, 0x0D]) := by decide
theorem test_dispatch_DV17 : after (exec .dispatch (withLine [0x6F, 0x66, 0x66, 0x20] true))
    (fun t => (t.rxOverlong, t.lastCmd, t.txq.length)) = some (true, 3, 19) := by decide
theorem test_lineOn_DV23 : after (exec .lineOn (faulty (withLine [0x6F, 0x6E] false)))
    (fun t => (t.statusWord, t.errCode, t.errInfo)) = some (0x0A7, 8, 1) := by decide
theorem test_lineOff_DV2 : after (exec .lineOff { withLine [0x6F, 0x66, 0x66] false with relay := true })
    (fun t => (t.relay, t.lastCmd, t.txq.length)) = some (false, 2, 19) := by decide
theorem test_lineOther_DV24 : after (exec (.lineOther [0x78, 0x79, 0x7A] false) (faulty (withLine [0x78, 0x79, 0x7A] false)))
    (fun t => (t.life, t.lastCmd)) = some (.running, 3) := by decide
theorem test_txDepart_R131 : after (exec .txDepart { fatal with txq := [0x6E, 0x0D], inp := { txReady := true } })
    (fun t => (t.txq, t.txData)) = some ([0x0D], 0x0D) := by decide
theorem test_reset_RV2 : after (exec .reset fatal) (fun t => (t.statusWord, t.errCode, t.errInfo, t.maxBright)) =
    some (0x400, 0, 0, 0x3F800000) := by decide
theorem test_withFetchWord_runs : after (step (State.reset.withFetchWord 48 0xF0400000004)) (fun t => t.statusWord) =
    some 0x500 := by decide
theorem test_withFetchWord_line : after (step (State.reset.withFetchWord 16 0x6F6E)) (fun t => t.relay) = some true := by
  decide

/-! ### Witnesses: a case that meets the hypotheses of each statement -/

/-- A state whose next turn is the one given. -/
def withTurn (a : Agent) (p : Inputs) : State := { loaded with schedule := [⟨a, p⟩] }

/-- RUNNING with a tick due and a complete `on` line waiting; the tick step has the next turn. -/
def busyState : State := { withLine [0x6F, 0x6E] false with tickPend := true, schedule := [⟨.tick, {}⟩] }

/-- SCALING; the host has the next turn, the scaler the one after. -/
def scalerNext : State := { scaling with schedule := [⟨.host, {}⟩, ⟨.scaler, {}⟩] }

/-- The input levels of the access `SCALE`. -/
def scaleAccess : Inputs := { busValid := true, busWrite := true, busAddr := 0x04, busWdata := 2, busWstrb := 0xF }

theorem inv_scaled : Inv scaled := by refine ⟨?_, ?_, ?_, ?_, ?_, ?_, ?_, ?_⟩ <;> decide
theorem inv_fatal : Inv fatal := by refine ⟨?_, ?_, ?_, ?_, ?_, ?_, ?_, ?_⟩ <;> decide
theorem inv_busyState : Inv busyState := by refine ⟨?_, ?_, ?_, ?_, ?_, ?_, ?_, ?_⟩ <;> decide
theorem inv_scalerNext : Inv scalerNext := by refine ⟨?_, ?_, ?_, ?_, ?_, ?_, ?_, ?_⟩ <;> decide

theorem witness_BusDecodeMap_writes :
    (0x5D#8).toNat % 4 ≠ 0 ∧ ((0x60#8).toNat % 4 = 0 ∧ (0xE#4) ≠ 0xF) ∧ ((0x60#8).toNat % 4 = 0 ∧ 0x60 ≤ (0x60#8).toNat) ∧
    3 < (4#32).toNat ∧ ((0x5C#8).toNat % 4 = 0 ∧ (0x5C#8).toNat < 0x60 ∧
      0x5C#8 ∉ [0x04#8, 0x08#8, 0x14#8, 0x24#8, 0x28#8, 0x3C#8, 0x50#8]) := by decide
theorem witness_BusDecodeMap_reads :
    (0x03#8).toNat % 4 ≠ 0 ∧ ((0xFC#8).toNat % 4 = 0 ∧ 0x60 ≤ (0xFC#8).toNat) ∧
    ((0x5C#8).toNat % 4 = 0 ∧ (0x5C#8).toNat < 0x60 ∧ 0x5C#8 ∉ [0x04#8, 0x14#8, 0x40#8, 0x44#8]) := by decide
theorem witness_DecodeInvertsEncode :
    (Instr.cmdIllegal 4).wf = true ∧ encode (.cmdIllegal 4) = some (.busw 0xF0400000004) ∧
    (Instr.lineOther [] false).wf = true ∧ encode (.lineOther [] false) = some (.line [] false) := by decide
theorem witness_EncodeInvertsDecodeOnTheBus : lfByte ∉ ([0x6F, 0x6E, 0x0D] : List Byte) ∧
    ([0x6F, 0x6E, 0x0D] : List Byte).length ≤ 65535 := by decide
theorem witness_StepRunsTheOfferedAccess_write :
    (withTurn .host { busValid := true, busWrite := true }).nextTurn = ⟨.host, { busValid := true, busWrite := true }⟩ := by
  decide
theorem witness_StepRunsTheOfferedAccess_read :
    (withTurn .host { busValid := true }).nextTurn = ⟨.host, { busValid := true }⟩ := by decide
theorem witness_StepRunsTheOfferedAccess_idle : (withTurn .host {}).nextTurn = ⟨.host, {}⟩ := by decide
theorem witness_StepRunsTheTurnsAgent :
    (withTurn .host { rst := true }).schedule = [⟨.host, { rst := true }⟩] ∧
    (withTurn .scaler {}).schedule = [⟨.scaler, {}⟩] ∧ (withTurn .tickDue {}).schedule = [⟨.tickDue, {}⟩] ∧
    (withTurn .tick {}).schedule = [⟨.tick, {}⟩] ∧ (withTurn .dispatch {}).schedule = [⟨.dispatch, {}⟩] ∧
    (withTurn .rxenv { rxValid := true }).schedule = [⟨.rxenv, { rxValid := true }⟩] ∧
    (withTurn .rxenv {}).schedule = [⟨.rxenv, {}⟩] ∧ (withTurn .txenv {}).schedule = [⟨.txenv, {}⟩] ∧
    (withTurn .pwmgen {}).schedule = [⟨.pwmgen, {}⟩] ∧ (withTurn .clk {}).schedule = [⟨.clk, {}⟩] := by decide
theorem witness_PlacedBusWordRunsNext : (2 ^ 44 - 1 : Nat) < 2 ^ 44 ∧ (2 ^ 8 - 1 : Nat) < 2 ^ 8 := by decide
theorem witness_RegisterReads : Reg.id.plainRead = true ∧ Reg.tickCycles.plainRead = true := by decide
theorem witness_ParamsFields : State.reset.cfg.Valid := by decide
theorem witness_WriteOnlyRegistersReadZero : Reg.cmd.writeOnly = true ∧ Reg.loadData.writeOnly = true := by decide
theorem witness_LutWindowRead : State.reset.len.toNat ≤ State.reset.cfg.dataCap ∧
    ({ scaled with len := 16 }).len.toNat ≤ ({ scaled with len := 16 }).cfg.dataCap := by decide
theorem witness_SampleWindowRead : State.reset.len.toNat ≤ State.reset.cfg.dataCap ∧
    ({ loaded with len := 16 }).len.toNat ≤ ({ loaded with len := 16 }).cfg.dataCap := by decide
theorem witness_NopAndReadOnlyWritesHaveNoEffect : Reg.id.readOnly = true ∧ Reg.tickCycles.readOnly = true := by decide
theorem witness_IllegalOperationsOnlySetCmdErr :
    loaded.life ≠ .load ∧ (scaling.life ≠ .load ∧ scaling.life ≠ .loaded) ∧ scaling.life ≠ .loaded ∧ running.life ≠ .scaled := by
  decide
theorem witness_LoadByte_header : ({ State.reset with pos := 3 }).life = .load ∧
    ({ State.reset with pos := 3 }).len.toNat ≤ State.reset.cfg.dataCap ∧
    Mem.wf ({ State.reset with pos := 3 }).sample = true := by decide
theorem witness_LoadByte_payload : ({ loaded with life := .load, pos := 11 }).life = .load ∧
    ({ loaded with life := .load, pos := 11 }).len.toNat ≤ loaded.cfg.dataCap ∧
    Mem.wf ({ loaded with life := .load, pos := 11 }).sample = true := by decide
theorem witness_RefusedAccessesChangeNothing : (0x5D#8).toNat % 4 ≠ 0 ∧
    ((0xFC#8).toNat % 4 = 0 ∧ (0x0#4) ≠ 0xF) ∧ ((0x60#8).toNat % 4 = 0 ∧ 0x60 ≤ (0x60#8).toNat) := by decide
theorem witness_HeaderTruncatesToCapacity : Config.testParams.Valid := by decide
theorem witness_WaveformRoundTrip : Config.testParams.Valid ∧ 1 ≤ (List.replicate 16 (0x7FC00000 : Word)).length ∧
    (List.replicate 16 (0x7FC00000 : Word)).length ≤ Config.testParams.dataCap := by decide
theorem witness_RoundingIsNearestTiesToEven : 0 < 1 ∧ (2 ^ 53 - 1 : Nat) < 2 ^ 53 ∧ 0 < (F64.mk 1).units ∧
    (F64.mk (-1)).units < 0 := by decide
/-- The series [0.0, 1.0], its extremes at indices 0 and 1. -/
theorem witness_ScalerBuildsTheLut : scaling.life = .scaling ∧ cfgOk scaling.maxBright = true ∧
    cfgOk scaling.dynRange = true ∧ scaling.len.toNat ≤ scaling.cfg.dataCap ∧ Mem.wf scaling.lut = true ∧
    (∀ i < scaling.len.toNat, isFinite32 (scaling.sample.read i) = true) ∧
    (0 < scaling.len.toNat ∧ F64.ofBin32 (scaling.sample.read 0) = F64.ofNat 0) ∧
    (1 < scaling.len.toNat ∧ F64.ofBin32 (scaling.sample.read 1) = F64.ofNat 1) ∧
    (∀ i < scaling.len.toNat, (F64.ofNat 0).units ≤ (F64.ofBin32 (scaling.sample.read i)).units ∧
      (F64.ofBin32 (scaling.sample.read i)).units ≤ (F64.ofNat 1).units) ∧ F64.ofNat 0 ≠ F64.ofNat 1 := by decide +kernel
theorem witness_ScalerFatalChecksInOrder_config : scaling.life = .scaling ∧ 1 ≤ scaling.len.toNat ∧
    scaling.len.toNat ≤ scaling.cfg.dataCap ∧ cfgOk 0x3F800001 = false ∧ cfgOk 0x80000001 = false ∧
    cfgOk 0x3F800000 = true ∧ cfgOk 0x80000000 = true := by decide
/-- SV22: the first sample that is not finite has index 1. -/
theorem witness_ScalerFatalChecksInOrder_sample :
    let s := { scaling with len := 3, sample := [(0, 0x3F800000), (1, 0x7FC00000), (2, 0x7F800000)] }
    1 < s.len.toNat ∧ isFinite32 (s.sample.read 1) = false ∧ ∀ j < 1, isFinite32 (s.sample.read j) = true := by decide
/-- W6: 0.0 and -0.0 are equal values. -/
theorem witness_ScalerFatalChecksInOrder_degenerate :
    let s := { scaling with sample := [(1, 0x80000000)] }
    (∀ i < s.len.toNat, isFinite32 (s.sample.read i) = true) ∧
      ∀ i < s.len.toNat, F64.ofBin32 (s.sample.read i) = F64.ofBin32 (s.sample.read 0) := by decide +kernel
theorem witness_LutPreservesSampleOrder : ∃ t : State, exec .scalerStep scaling = .next t ∧ scaling.life = .scaling ∧
    t.life = .scaled ∧ Mem.wf scaling.lut = true ∧ 0 < scaling.len.toNat ∧ 1 < scaling.len.toNat ∧
    (F64.ofBin32 (scaling.sample.read 0)).units ≤ (F64.ofBin32 (scaling.sample.read 1)).units :=
  ⟨_, rfl, by decide +kernel⟩
theorem witness_ScalerIntermediatesStayFinite : cfgOk 0x3F800000 = true ∧ cfgOk 0x80000000 = true ∧
    isFinite32 0xFF7FFFFF = true ∧ isFinite32 0x7F7FFFFF = true ∧
    (F64.ofBin32 0xFF7FFFFF).units < (F64.ofBin32 0x7F7FFFFF).units ∧
    (F64.ofBin32 0xFF7FFFFF).units ≤ (F64.ofBin32 0x00000001).units ∧
    (F64.ofBin32 0x00000001).units ≤ (F64.ofBin32 0x7F7FFFFF).units := by decide +kernel
/-- Two states that differ in the relay, the queue and a sample beyond LEN. -/
theorem witness_ScalerIsAPureFunction :
    let s' := { scaling with relay := true, txq := [0x0D], sample := [(1, 0x3F800000), (2, 7)] }
    s'.life = .scaling ∧ s'.cfg = scaling.cfg ∧ s'.len = scaling.len ∧ s'.maxBright = scaling.maxBright ∧
    s'.dynRange = scaling.dynRange ∧ (∀ i < scaling.len.toNat, s'.sample.read i = scaling.sample.read i) ∧
    Mem.wf scaling.lut = true ∧ Mem.wf s'.lut = true ∧ (after (exec .scalerStep scaling) (fun t => t.life)) = some .scaled ∧
    (after (exec .scalerStep s') (fun t => t.life)) = some .scaled := by decide +kernel
theorem witness_StartCommand : 1 ≤ scaled.cfg.dataCap ∧ scaled.life = .scaled ∧ loaded.life ≠ .scaled := by decide
theorem witness_TickStep : let s := { running with tickPend := true, timeIndex := 1 }
    s.life = .running ∧ s.tickPend = true ∧ 1 ≤ s.len.toNat ∧ s.len.toNat ≤ s.cfg.dataCap := by decide
theorem witness_TickDueAndPwmReload : running.life = .running := by decide
theorem witness_PlaybackWrapsAround : Inv scaled ∧ scaled.life = .scaled ∧ scaled.inp.drvFault = false :=
  ⟨inv_scaled, by decide⟩
theorem witness_TickFallsDueAfterTickCycles : running.cfg.Valid ∧ running.life = .running ∧ running.tb = 0 ∧
    running.tickPend = false := by decide
theorem witness_WaitingLineIsPolledInTime : let s := { withLine [] false with cp := 393210 }
    s.life = .running ∧ s.linePend = true ∧ s.cp.toNat ≤ s.cfg.cmdIdleCycles := by decide
theorem witness_RxAccept : Mem.wf (w := 8) running.lineBuf = true ∧ Mem.wf (w := 8) (withLine [0x61] true).lineBuf = true := by
  decide
theorem witness_DispatchStep : let s := { withLine [0x6F, 0x6E] false with txq := List.replicate 62 0 }
    s.life = .running ∧ s.linePend = true ∧ s.lineLen.toNat ≤ s.cfg.lineMax ∧
    16 + (strip ((List.range s.lineLen.toNat).map (Mem.read (w := 8) s.lineBuf))).length ≤ s.txFree := by decide
theorem witness_DispatchIsOneOfTheLineRows : let s := withLine [0x6F, 0x66, 0x66] false
    s.life = .running ∧ s.linePend = true ∧ s.lineLen.toNat ≤ s.cfg.lineMax := by decide
theorem witness_OnAndOffLines : let s := { withLine [0x6F, 0x66, 0x66] false with txq := List.replicate 61 0 }
    strip [0x20, 0x6F, 0x6E, 0x0D] = [0x6F, 0x6E] ∧ strip [0x09, 0x6F, 0x66, 0x66] = [0x6F, 0x66, 0x66] ∧
    s.life = .running ∧ s.linePend = true ∧ 18 ≤ s.txFree ∧ 19 ≤ s.txFree := by decide
theorem witness_OtherLines : let s := withLine [0x61] false
    strip [0x6F, 0x20, 0x6E] ≠ [0x6F, 0x6E] ∧ strip [0x6F, 0x20, 0x6E] ≠ [0x6F, 0x66, 0x66] ∧
    s.life = .running ∧ s.linePend = true ∧ 16 + ([0x61] : List Byte).length ≤ s.txFree := by decide
theorem witness_DisabledStepsChangeNothing : loaded.life ≠ .scaling ∧ loaded.life ≠ .running ∧
    ¬(running.life = .running ∧ running.tickPend = true) ∧
    (let s := withLine [] false; ¬(s.life = .running ∧ s.linePend = false)) ∧ running.txq = [] ∧
    running.inp.txReady = false ∧ ¬(running.life = .running ∧ running.linePend = true) := by decide
/-- No room for the echo by one byte. -/
theorem witness_DisabledStepsChangeNothing_full : let s := { withLine [0x6F, 0x6E] false with txq := List.replicate 63 0 }
    s.lineLen.toNat ≤ s.cfg.lineMax ∧
    s.txFree < 16 + (strip ((List.range s.lineLen.toNat).map (Mem.read (w := 8) s.lineBuf))).length ∧
    s.txFree < 18 ∧ ({ s with txq := List.replicate 62 0 }).txFree < 19 ∧
    ({ s with txq := List.replicate 65 0 }).txFree < 16 + ([] : List Byte).length := by decide
theorem witness_TxDepart : let s := { fatal with txq := [0x0D], inp := { txReady := true } }
    s.txq = 0x0D :: [] ∧ s.inp.txReady = true := by decide
theorem witness_LinesSetTheRelay : let s := { running with inp := { txReady := true } }
    s.cfg.Valid ∧ Mem.wf (w := 8) s.lineBuf = true ∧ s.life = .running ∧ s.lineLen = 0 ∧ s.lineOvf = false ∧
    s.linePend = false ∧ s.txq = [] ∧ s.inp.drvFault = false ∧ s.inp.txReady = true ∧
    ∀ l ∈ ([[0x6F, 0x6E], [0x4F, 0x4E], [0x6F, 0x66, 0x66], []] : List (List Byte)), lfByte ∉ l := by decide
theorem witness_TickAndDispatchCommute : Inv busyState ∧ busyState.inp.drvFault = false := ⟨inv_busyState, by decide⟩
theorem witness_FatalIsLeftOnlyByReset : let s := { fatal with schedule := [⟨.tick, {}⟩] }
    s.life = .fatal ∧ s.nextTurn.inputs.rst = false ∧ step s = .next s.takeTurn := ⟨by decide, by decide, rfl⟩
theorem witness_LifecycleTransitions : let s := { loaded with schedule := [⟨.host, scaleAccess⟩] }
    s.nextTurn.inputs.rst = false ∧ after (step s) (fun t => t.life) = some .scaling ∧ s.life = .loaded := by decide
theorem witness_OwnershipByOperation : exec .nop State.reset = .next { State.reset with busReady := true } ∧
    (Instr.nop ≠ .reset ∧ Instr.nop ≠ .dispatch ∧ Instr.nop ≠ .lineOn ∧ Instr.nop ≠ .lineOff ∧ Instr.nop ≠ .start ∧
      Instr.nop ≠ .tickStep ∧ Instr.nop ≠ .scalerStep) ∧
    (after (exec (.ldb 0 0) loaded) (fun t => t.pos) = some 12 ∧ loaded.life ≠ .load) := ⟨rfl, by decide, by decide⟩
theorem witness_OutputPorts : fatal.life = .fatal ∧ (withTurn .host { rst := true }).takeTurn.inp.rst = true := by decide
/-- The smallest values R6 to R13 allow. -/
theorem witness_ResetMeetsInv : Config.testParams.Valid ∧
    (⟨1, 3, 19, .reference, 1, 1, 1, 1, 0⟩ : Params).Valid := by decide
theorem witness_StepKeepsInv : Inv busyState ∧ after (step busyState) (fun t => t.timeIndex) = some 1 :=
  ⟨inv_busyState, by decide⟩
theorem witness_NoStepFaultsUnderInv : Inv busyState ∧ Inv scalerNext ∧ Inv fatal :=
  ⟨inv_busyState, inv_scalerNext, inv_fatal⟩
theorem witness_ScalingEndsWithTheScalersTurn : ∃ h : 1 < scalerNext.schedule.length, Inv scalerNext ∧
    scalerNext.life = .scaling ∧ (scalerNext.schedule[1]).agent = .scaler ∧
    (scalerNext.schedule[1]).inputs.rst = false := ⟨by decide, inv_scalerNext, by decide⟩

end Sys2Proof.Tests
end

section
/-! PROOFS. R21: `strip` takes whitespace from both ends and nothing else. -/

namespace Sys2Proof.Proofs

open Sys2Proof

/-- The set `isWs` tests for, byte by byte (R21). -/
theorem isWs_iff (b : Byte) : isWs b = true ↔ b ∈ ([0x09, 0x0A, 0x0B, 0x0C, 0x0D, 0x20] : List Byte) :=
  List.contains_iff_mem

theorem head?_dropWhile_isWs {l : List Byte} {b : Byte} (h : b ∈ (l.dropWhile isWs).head?) : isWs b = false := by
  have hnot := List.head?_dropWhile_not isWs l
  rwa [Option.mem_def.mp h] at hnot

/-- What `strip` takes from the right is the whitespace that the text without its left end ends in. -/
theorem strip_append_trailing (s : List Byte) :
    strip s ++ ((s.dropWhile isWs).reverse.takeWhile isWs).reverse = s.dropWhile isWs := by
  rw [strip, ← List.reverse_append, List.takeWhile_append_dropWhile, List.reverse_reverse]

theorem head?_strip {s : List Byte} {b : Byte} (h : b ∈ (strip s).head?) : isWs b = false := by
  refine head?_dropWhile_isWs (l := s) ?_
  rw [← strip_append_trailing s, List.head?_append, Option.mem_def.mp h]
  rfl

theorem getLast?_strip {s : List Byte} {b : Byte} (h : b ∈ (strip s).getLast?) : isWs b = false := by
  refine head?_dropWhile_isWs (l := (s.dropWhile isWs).reverse) ?_
  rwa [strip, List.getLast?_reverse] at h

/-- Settles O5: `a` is the whitespace that `s` begins with, `b` the whitespace that the rest of it ends in. -/
theorem stripRemovesExactlyTheEnds : Obligations.StripRemovesExactlyTheEnds := by
  intro s ws
  refine ⟨s.takeWhile isWs, ((s.dropWhile isWs).reverse.takeWhile isWs).reverse, ?_, ?_, ?_, ?_, ?_⟩
  · rw [List.append_assoc, strip_append_trailing, List.takeWhile_append_dropWhile]
  · exact fun b hb => (isWs_iff b).mp (List.mem_takeWhile_imp hb)
  · exact fun b hb => (isWs_iff b).mp (List.mem_takeWhile_imp (List.mem_reverse.mp hb))
  · exact fun b hb hws => Bool.false_ne_true ((head?_strip hb).symm.trans ((isWs_iff b).mpr hws))
  · exact fun b hb hws => Bool.false_ne_true ((getLast?_strip hb).symm.trans ((isWs_iff b).mpr hws))

end Sys2Proof.Proofs
end

section
/-! PROOFS. R18: the rounding answers a nearest value of the format, and the even one of two that are equally near. -/

namespace Sys2Proof.Machine

/-- `d` times the distance of `x` from the exact value `n / d`, in units. -/
def F64.scaledDist (n : Int) (d : Nat) (x : F64) : Nat := (n - x.units * d).natAbs

/-- R18's "to nearest, ties to even" for `x` against every value of the format: none is nearer to `n / d`, and where another
is equally near, `x` is an even multiple of a last place that is twice the distance. -/
def F64.IsNearestEven (n : Int) (d : Nat) (x : F64) : Prop :=
  ∀ y : F64, y.IsRep →
    F64.scaledDist n d x ≤ F64.scaledDist n d y ∧
    (F64.scaledDist n d x = F64.scaledDist n d y → y ≠ x →
      ∃ k f : Nat, k % 2 = 0 ∧ k ≤ 2 ^ 53 ∧ x.units.natAbs = k * 2 ^ f ∧ 2 * F64.scaledDist n d x = d * 2 ^ f)

/-! ### The grid around the exact value -/

/-- A value of the format above the grid point below `q` is at or above the next grid point: between the two there is none. -/
theorem F64.next_gridPoint_le {q m e : Nat} (hm : m ≤ 2 ^ 53)
    (h : q / 2 ^ F64.ulpExp q * 2 ^ F64.ulpExp q < m * 2 ^ e) :
    (q / 2 ^ F64.ulpExp q + 1) * 2 ^ F64.ulpExp q ≤ m * 2 ^ e := by
  rcases Nat.lt_or_ge e (F64.ulpExp q) with he | he
  · -- a finer last place: the value is below every one with 53 significant bits on the grid
    exfalso
    have hsmall : m * 2 ^ e ≤ q / 2 ^ F64.ulpExp q * 2 ^ F64.ulpExp q :=
      calc m * 2 ^ e ≤ 2 ^ 53 * 2 ^ e := Nat.mul_le_mul_right _ hm
        _ = 2 ^ 52 * 2 ^ (e + 1) := by ring
        _ ≤ 2 ^ 52 * 2 ^ F64.ulpExp q := Nat.mul_le_mul_left _ (Nat.pow_le_pow_right (by norm_num) he)
        _ ≤ _ := Nat.mul_le_mul_right _ (F64.le_significand (by omega))
    omega
  · -- the value is on the grid
    obtain ⟨c, hc⟩ := (Nat.pow_dvd_pow 2 he).mul_left m
    rw [hc, Nat.mul_comm (2 ^ F64.ulpExp q) c] at h ⊢
    exact Nat.mul_le_mul_right _ (Nat.lt_of_mul_lt_mul_right h)

/-- The two grid points around `n / d`, as bounds on the other values of the format. -/
theorem F64.isRep_not_between (n d : Nat) {y : F64} (hy : y.IsRep) :
    y.units ≤ (n / (d * 2 ^ F64.ulpExp (n / d)) * 2 ^ F64.ulpExp (n / d) : Nat) ∨
    ((n / (d * 2 ^ F64.ulpExp (n / d)) + 1) * 2 ^ F64.ulpExp (n / d) : Nat) ≤ y.units := by
  obtain ⟨m, e, hm, hy⟩ := hy
  rw [← Nat.div_div_eq_div_mul]
  have hnext := F64.next_gridPoint_le (q := n / d) (e := e) hm
  omega

/-- What rounding a magnitude does: the exact value lies `r / d` units above `m` last places of `2 ^ f` units, no value of the
format lies between `m` and `m + 1` places, and the choice between these two goes by `r`: down up to half a place, up from
half a place on, and at half a place to the even one. -/
theorem F64.roundNat_spec (n : Nat) {d : Nat} (hd : 0 < d) :
    ∃ m f r : Nat, n = d * 2 ^ f * m + r ∧ r < d * 2 ^ f ∧ m < 2 ^ 53 ∧
      (∀ y : F64, y.IsRep → y.units ≤ (m * 2 ^ f : Nat) ∨ ((m + 1) * 2 ^ f : Nat) ≤ y.units) ∧
      ((F64.roundNat n d = m * 2 ^ f ∧ 2 * r ≤ d * 2 ^ f ∧ (2 * r = d * 2 ^ f → m % 2 = 0)) ∨
        (F64.roundNat n d = (m + 1) * 2 ^ f ∧ d * 2 ^ f ≤ 2 * r ∧ (2 * r = d * 2 ^ f → (m + 1) % 2 = 0))) := by
  have hm := F64.significand_lt (n / d)
  rw [Nat.div_div_eq_div_mul] at hm
  refine ⟨_, _, _, (Nat.div_add_mod n (d * 2 ^ F64.ulpExp (n / d))).symm, Nat.mod_lt _ (by positivity), hm,
    fun _ hy => F64.isRep_not_between n d hy, ?_⟩
  rw [F64.roundNat]
  split
  · exact .inr ⟨rfl, by omega, by omega⟩
  · exact .inl ⟨rfl, by omega, by omega⟩

/-! ### Distances from an exact value `r / d` units above `m` last places of `2 ^ f` units -/

/-- Of two values on one side of `n / d`, the inner one is nearer, unless they are the same. -/
theorem F64.scaledDist_le_of_between {n : Int} {d : Nat} (hd : 0 < d) {x y : F64}
    (h : (y.units ≤ x.units ∧ x.units * d ≤ n) ∨ (x.units ≤ y.units ∧ n ≤ x.units * d)) :
    F64.scaledDist n d x ≤ F64.scaledDist n d y ∧ (F64.scaledDist n d x = F64.scaledDist n d y → y = x) := by
  have hd' : (0 : Int) < d := by exact_mod_cast hd
  have hinj : y.units * d = x.units * d → y = x := by
    cases x; cases y
    exact fun heq => congrArg F64.mk (mul_right_cancel₀ hd'.ne' heq)
  unfold F64.scaledDist
  rcases h with ⟨hyx, hxn⟩ | ⟨hxy, hnx⟩
  · have := mul_le_mul_of_nonneg_right hyx hd'.le
    exact ⟨by omega, fun heq => hinj (by omega)⟩
  · have := mul_le_mul_of_nonneg_right hxy hd'.le
    exact ⟨by omega, fun heq => hinj (by omega)⟩

/-- The grid point below is `r` away; a value below it is farther. -/
theorem F64.scaledDist_of_le_below {d m f r : Nat} (hd : 0 < d) :
    F64.scaledDist (d * 2 ^ f * m + r : Nat) d ⟨(m * 2 ^ f : Nat)⟩ = r ∧
    ∀ y : F64, y.units ≤ (m * 2 ^ f : Nat) → r ≤ F64.scaledDist (d * 2 ^ f * m + r : Nat) d y ∧
      (r = F64.scaledDist (d * 2 ^ f * m + r : Nat) d y → y = ⟨(m * 2 ^ f : Nat)⟩) := by
  have hgrid : ((m * 2 ^ f : Nat) : Int) * d = (d * 2 ^ f * m : Nat) := by push_cast; ring
  have hdist : F64.scaledDist (d * 2 ^ f * m + r : Nat) d ⟨(m * 2 ^ f : Nat)⟩ = r := by
    rw [F64.scaledDist, hgrid]; omega
  refine ⟨hdist, fun y hy => ?_⟩
  have hnear := F64.scaledDist_le_of_between (n := (d * 2 ^ f * m + r : Nat)) hd (.inl ⟨hy, by rw [hgrid]; omega⟩)
  rwa [hdist] at hnear

/-- The grid point above is `d * 2 ^ f - r` away; a value above it is farther. -/
theorem F64.scaledDist_of_above_le {d m f r : Nat} (hd : 0 < d) (hr : r < d * 2 ^ f) :
    F64.scaledDist (d * 2 ^ f * m + r : Nat) d ⟨((m + 1) * 2 ^ f : Nat)⟩ = d * 2 ^ f - r ∧
    ∀ y : F64, ((m + 1) * 2 ^ f : Nat) ≤ y.units →
      d * 2 ^ f - r ≤ F64.scaledDist (d * 2 ^ f * m + r : Nat) d y ∧
      (d * 2 ^ f - r = F64.scaledDist (d * 2 ^ f * m + r : Nat) d y → y = ⟨((m + 1) * 2 ^ f : Nat)⟩) := by
  have hgrid : (((m + 1) * 2 ^ f : Nat) : Int) * d = (d * 2 ^ f * m + d * 2 ^ f : Nat) := by push_cast; ring
  have hdist : F64.scaledDist (d * 2 ^ f * m + r : Nat) d ⟨((m + 1) * 2 ^ f : Nat)⟩ = d * 2 ^ f - r := by
    rw [F64.scaledDist, hgrid]; omega
  refine ⟨hdist, fun y hy => ?_⟩
  have hnear := F64.scaledDist_le_of_between (n := (d * 2 ^ f * m + r : Nat)) hd (.inr ⟨hy, by rw [hgrid]; omega⟩)
  rwa [hdist] at hnear

/-! ### Nearest, for each sign -/

/-- On the side of `n / d` where the chosen grid point lies, every other value is farther; on the other side, every value is
at least as far as the other grid point, and a tie with it is the tie of the two grid points. -/
theorem F64.roundNat_isNearestEven (n : Nat) {d : Nat} (hd : 0 < d) :
    F64.IsNearestEven n d ⟨(F64.roundNat n d : Int)⟩ := by
  intro y hy
  obtain ⟨m, f, r, hn, hr, hm, hgap, hchoice⟩ := F64.roundNat_spec n hd
  obtain ⟨hbelow, hleft⟩ := F64.scaledDist_of_le_below (m := m) (f := f) (r := r) hd
  obtain ⟨habove, hright⟩ := F64.scaledDist_of_above_le (m := m) hd hr
  rw [← hn] at hbelow hleft habove hright
  rcases hchoice with ⟨hround, hhalf, heven⟩ | ⟨hround, hhalf, heven⟩
  · rw [hround, hbelow]
    rcases hgap y hy with hle | hge
    · exact ⟨(hleft y hle).1, fun heq hne => absurd ((hleft y hle).2 heq) hne⟩
    · have hfar := (hright y hge).1
      exact ⟨by omega, fun heq _ => ⟨m, f, heven (by omega), by omega, Int.natAbs_natCast _, by omega⟩⟩
  · rw [hround, habove]
    rcases hgap y hy with hle | hge
    · have hfar := (hleft y hle).1
      exact ⟨by omega, fun heq _ => ⟨m + 1, f, heven (by omega), by omega, Int.natAbs_natCast _, by omega⟩⟩
    · exact ⟨(hright y hge).1, fun heq hne => absurd ((hright y hge).2 heq) hne⟩

/-- The format is symmetric in the sign, and so is the rule. -/
theorem F64.IsNearestEven.neg {n : Int} {d : Nat} {x : F64} (h : F64.IsNearestEven n d x) :
    F64.IsNearestEven (-n) d ⟨-x.units⟩ := by
  have hdist : ∀ z : F64, F64.scaledDist (-n) d ⟨-z.units⟩ = F64.scaledDist n d z := by
    intro z
    rw [F64.scaledDist, F64.scaledDist, ← Int.natAbs_neg]
    congr 1
    ring
  intro y hy
  obtain ⟨hle, htie⟩ := h ⟨-y.units⟩ (by simpa [F64.IsRep] using hy)
  have hy' := hdist ⟨-y.units⟩
  simp only [neg_neg] at hy'
  rw [hdist, hy', Int.natAbs_neg]
  refine ⟨hle, fun heq hne => htie heq fun hxy => hne ?_⟩
  rw [← hxy]
  simp

/-- R18: rounding to nearest, ties to even, for both signs. -/
theorem F64.round_isNearestEven (n : Int) {d : Nat} (hd : 0 < d) : F64.IsNearestEven n d (F64.round n d) := by
  have hnat := F64.roundNat_isNearestEven n.natAbs hd
  rcases lt_or_ge n 0 with hn | hn
  · have hneg := hnat.neg
    rw [Int.ofNat_natAbs_of_nonpos hn.le, neg_neg] at hneg
    simpa only [F64.round, if_pos hn] using hneg
  · rw [Int.natAbs_of_nonneg hn] at hnat
    simpa only [F64.round, if_neg hn.not_gt] using hnat

/-! ### The operations -/

/-- Dividing by a positive value rounds the quotient of the units. -/
theorem F64.div_of_pos (x : F64) {y : F64} (hy : 0 < y.units) :
    x.div y = F64.round (x.units * F64.one) y.units.toNat := by
  rw [F64.div, Int.sign_eq_one_of_pos hy, mul_one, show y.units.natAbs = y.units.toNat by omega]

/-- Dividing by a negative value rounds the quotient with the sign moved to the dividend. -/
theorem F64.div_of_neg (x : F64) {y : F64} (hy : y.units < 0) :
    x.div y = F64.round (-(x.units * F64.one)) (-y.units).toNat := by
  rw [F64.div, Int.sign_eq_neg_one_of_neg hy, mul_neg_one, show y.units.natAbs = (-y.units).toNat by omega]

end Sys2Proof.Machine

namespace Sys2Proof.Proofs

open Sys2Proof Sys2Proof.Machine

/-- Settles O27: the operations by their definitions, the rounding by `F64.round_isNearestEven`. -/
theorem roundingIsNearestTiesToEven : Obligations.RoundingIsNearestTiesToEven := by
  have hone : (F64.one : Int) = 2 ^ 1074 := by rw [F64.one, Nat.cast_pow, Nat.cast_ofNat]
  refine ⟨fun x y => ⟨rfl, rfl, rfl, fun hy => ?_, fun hy => ?_⟩, fun n d hd => ⟨F64.round_isRep n d, ?_⟩⟩
  · rw [F64.div_of_pos x hy, hone]
  · rw [F64.div_of_neg x hy, hone]
  · intro m e neg hm y
    have hy : (F64.mk y).IsRep := ⟨m, e, hm.le, by cases neg <;> simp [y, Int.natAbs_mul, Int.natAbs_pow]⟩
    obtain ⟨hle, htie⟩ := F64.round_isNearestEven n hd ⟨y⟩ hy
    exact ⟨hle, fun heq hne => htie heq fun h => hne (congrArg F64.units h)⟩

end Sys2Proof.Proofs
end

section
/-! PROOFS. What the next states of a result meet: one rule per wrapper of a meaning (R135, R149). -/

namespace Sys2Proof.Machine

/-- The next state, if the result answers one, meets `P`. -/
def NextMeets (P : State → Prop) (r : Result) : Prop := ∀ t, r = .next t → P t

theorem nextMeets_next {P : State → Prop} {t : State} : NextMeets P (.next t) ↔ P t :=
  ⟨fun h => h t rfl, fun h _ ht => Host.Outcome.next.inj ht ▸ h⟩

theorem nextMeets_fault {P : State → Prop} (f : Fault) : NextMeets P (.fault f) := by
  intro t ht
  cases ht

/-- A completed write meets what the operation meets, if the bus response does not matter to it (R135). -/
theorem NextMeets.completeWrite {P : State → Prop} {r : Result} (hr : NextMeets P r)
    (hrespond : ∀ u, P u → P (respond 0 u)) : NextMeets P (completeWrite r) := by
  intro t ht
  obtain ⟨u, hu, rfl⟩ := completeWrite_eq_next.1 ht
  exact hrespond u (hr u hu)

/-- A state-gated write meets what its effect meets where it is legal and what CMD_ERR keeps elsewhere (R149). -/
theorem nextMeets_gatedWrite {P : State → Prop} {legal : Bool} {effect : State → Result} {s : State}
    (hrespond : ∀ u, P u → P (respond 0 u)) (hflag : P (flagCmdErr s))
    (heffect : legal = true → NextMeets P (effect s)) : NextMeets P (completeWrite (gated legal effect s)) := by
  rw [gated_eq]
  split
  · exact (heffect ‹_›).completeWrite hrespond
  · exact nextMeets_next.2 (hrespond _ hflag)

/-- A read of LUT_DATA only answers (R141). -/
theorem nextMeets_execRdLut {P : State → Prop} {s : State} (h : ∀ v, P (respond v s)) : NextMeets P (execRdLut s) := by
  unfold execRdLut
  split
  · exact nextMeets_next.2 (h _)
  · exact nextMeets_fault _

/-- A read of SAMPLE_DATA only answers (R142). -/
theorem nextMeets_execRdSample {P : State → Prop} {s : State} (h : ∀ v, P (respond v s)) :
    NextMeets P (execRdSample s) := by
  unfold execRdSample
  split
  · exact nextMeets_next.2 (h _)
  · exact nextMeets_fault _

end Sys2Proof.Machine
end

section
/-! PROOFS. What each operation with several outcomes can do, one lemma for each: what is said of steps and of runs starts
from these. -/

namespace Sys2Proof.Machine

variable {s : State}

/-- A header byte before the fourth goes to `count_sr` only (R96). -/
theorem headerByte_of_ne_three (b : Byte) (h : s.pos.toNat ≠ 3) :
    headerByte b s = { s with countSr := shiftIn s.countSr b } := by
  unfold headerByte
  exact if_neg h

/-- The fourth header byte completes DECL_COUNT, LEN and TRUNC (R96, R98). -/
theorem headerByte_of_eq_three (b : Byte) (h : s.pos.toNat = 3) :
    headerByte b s = { s with
      countSr := shiftIn s.countSr b, declCount := shiftIn s.countSr b,
      len := BitVec.ofNat 32 (min (shiftIn s.countSr b).toNat s.cfg.dataCap),
      trunc := decide (s.cfg.dataCap < (shiftIn s.countSr b).toNat) } := by
  unfold headerByte
  exact if_pos h

@[simp] theorem headerByte_pos (b : Byte) (s : State) : (headerByte b s).pos = s.pos := by
  unfold headerByte
  split <;> rfl

@[simp] theorem headerByte_life (b : Byte) (s : State) : (headerByte b s).life = s.life := by
  unfold headerByte
  split <;> rfl

theorem advancePos_toNat_of_lt (h : s.pos.toNat < 4) : (advancePos s).pos.toNat = s.pos.toNat + 1 := by
  rw [advancePos_toNat, Nat.min_eq_left (by omega)]

theorem le_advancePos_toNat (s : State) : s.pos.toNat ≤ (advancePos s).pos.toNat := by
  rw [advancePos_toNat]
  exact le_min (Nat.le_succ _) (Nat.le_sub_one_of_lt s.pos.isLt)

/-- The commit ends in FATAL, or no check holds and it ends in LOADED (R97). -/
theorem commit_cases (s : State) :
    (∃ c, commit s = enterFatal c s.loadPos s) ∨ (commitError s = none ∧ commit s = { s with life := .loaded }) := by
  unfold commit
  split
  · exact .inl ⟨_, rfl⟩
  · exact .inr ⟨‹_›, rfl⟩

/-- A LUT entry below the capacity is there to be read (R52, R78). -/
theorem lutAt_cases (s : State) (i : Nat) :
    (i < s.cfg.dataCap ∧ s.lutAt i = some (s.lut.read i)) ∨ (s.cfg.dataCap ≤ i ∧ s.lutAt i = none) := by
  unfold State.lutAt
  split
  · exact .inl ⟨‹_›, rfl⟩
  · exact .inr ⟨by omega, rfl⟩

/-- Everything START can do where it is legal (R118): LUT entry 0 to both channels, or the model's own fault. -/
theorem startPlayback_cases (s : State) :
    (0 < s.cfg.dataCap ∧ startPlayback s = .next (checkDriver 0 (writeDuty (s.lut.read 0)
      { s with life := .running, timeIndex := 0, tb := 0, tickPend := false, cp := 0 }))) ∨
    (s.cfg.dataCap = 0 ∧ startPlayback s = .fault (.lutIndex 0)) := by
  unfold startPlayback
  rcases lutAt_cases s 0 with ⟨hi, heq⟩ | ⟨hi, heq⟩ <;> rw [heq]
  · exact .inl ⟨hi, rfl⟩
  · exact .inr ⟨by omega, rfl⟩

/-- The index the next tick shows (R119). -/
def State.nextIndex (s : State) : Nat := (s.timeIndex.toNat + 1) % s.len.toNat

/-- Everything the tick step can do (R119): nothing, the next LUT entry to both channels, or the model's own faults. -/
theorem execTickStep_cases (s : State) :
    (¬(s.life = .running ∧ s.tickPend = true) ∧ execTickStep s = .next s) ∨
    (s.life = .running ∧ s.tickPend = true ∧ s.len ≠ 0 ∧ s.nextIndex < s.cfg.dataCap ∧
      execTickStep s = .next (checkDriver 0 (writeDuty (s.lut.read s.nextIndex)
        { s with tickPend := false, timeIndex := BitVec.ofNat 32 s.nextIndex }))) ∨
    (s.life = .running ∧ s.tickPend = true ∧ (s.len = 0 ∨ s.cfg.dataCap ≤ s.nextIndex) ∧
      ∃ f, execTickStep s = .fault f) := by
  unfold execTickStep
  by_cases hguard : s.life = .running ∧ s.tickPend = true
  · obtain ⟨hlife, hpend⟩ := id hguard
    right
    by_cases hlen : s.len = 0
    · exact .inr ⟨hlife, hpend, .inl hlen, _, by rw [if_pos hguard, if_pos hlen]⟩
    · rcases lutAt_cases s s.nextIndex with ⟨hi, heq⟩ | ⟨hi, heq⟩
      · refine .inl ⟨hlife, hpend, hlen, hi, ?_⟩
        rw [if_pos hguard, if_neg hlen]
        rw [State.nextIndex] at heq
        simp only [heq, State.nextIndex]
      · refine .inr ⟨hlife, hpend, .inr hi, .lutIndex s.nextIndex, ?_⟩
        rw [if_pos hguard, if_neg hlen]
        rw [State.nextIndex] at heq
        simp only [heq, State.nextIndex]
  · exact .inl ⟨hguard, if_neg hguard⟩

/-- Everything the receiver can do with a byte (R125). -/
theorem execRxAccept_cases (b : Byte) (s : State) :
    (s.rxReady = false ∧ execRxAccept b s = .next s) ∨
    (s.life = .running ∧ s.linePend = false ∧
      ((b = lfByte ∧ execRxAccept b s = .next { s with linePend := true }) ∨
      (b ≠ lfByte ∧ s.lineLen.toNat < s.cfg.lineMax ∧ execRxAccept b s =
        .next { s with lineBuf := Mem.write (w := 8) s.lineBuf s.lineLen.toNat b, lineLen := s.lineLen + 1 }) ∨
      (b ≠ lfByte ∧ ¬s.lineLen.toNat < s.cfg.lineMax ∧ execRxAccept b s = .next { s with lineOvf := true }))) := by
  unfold execRxAccept
  cases hready : s.rxReady with
  | false => exact .inl ⟨rfl, rfl⟩
  | true =>
    simp only [State.rxReady, Bool.and_eq_true, beq_iff_eq, Bool.not_eq_true'] at hready
    refine .inr ⟨hready.1, hready.2, ?_⟩
    by_cases hb : b = lfByte
    · exact .inl ⟨hb, by simp [hb]⟩
    · by_cases hroom : s.lineLen.toNat < s.cfg.lineMax
      · exact .inr (.inl ⟨hb, hroom, by simp [hb, hroom]⟩)
      · exact .inr (.inr ⟨hb, hroom, by simp [hb, hroom]⟩)

/-- R90: 15 bytes before the text, and CR after it. -/
theorem echo_length (t : List Byte) : (echo t).length = 16 + t.length := by
  simp [echo, echoPrefix]
  omega

/-- Everything DISPATCH can do (R126): nothing, the dispatch step for the waiting line, or the model's own fault. -/
theorem execDispatch_cases (s : State) :
    (¬(s.life = .running ∧ s.linePend = true) ∧ execDispatch s = .next s) ∨
    (s.life = .running ∧ s.linePend = true ∧ s.cfg.lineMax < s.lineLen.toNat ∧
      execDispatch s = .fault (.lineIndex s.lineLen.toNat)) ∨
    (s.life = .running ∧ s.linePend = true ∧ s.lineLen.toNat ≤ s.cfg.lineMax ∧
      ∃ c t, decodeCommand (lineBytes s.lineBuf s.lineLen.toNat) s.lineOvf = (c, t) ∧
        execDispatch s = .next (dispatchAs c t s.lineOvf s)) := by
  unfold execDispatch State.line
  by_cases hguard : s.life = .running ∧ s.linePend = true
  · obtain ⟨hlife, hpend⟩ := id hguard
    right
    by_cases hlen : s.lineLen.toNat ≤ s.cfg.lineMax
    · refine .inr ⟨hlife, hpend, hlen, _, _, rfl, ?_⟩
      rw [if_pos hguard, if_pos hlen]
      rfl
    · exact .inl ⟨hlife, hpend, by omega, by rw [if_pos hguard, if_neg hlen]⟩
  · exact .inl ⟨hguard, if_neg hguard⟩

/-- Without a driver fault the driver check does nothing (R154). -/
theorem checkDriver_of_not_drvFault {info : Word} (h : s.inp.drvFault = false) : checkDriver info s = s := by
  rcases checkDriver_cases info s with ⟨-, heq⟩ | ⟨hfault, -⟩
  · exact heq
  · simp [h] at hfault

theorem runInstrs_cons {i : Instr} {is : List Instr} (h : exec i s = .next u) :
    runInstrs (i :: is) s = runInstrs is u := by
  rw [runInstrs, h]

/-- A list of operations runs as its first part and then, from where that ends, the rest. -/
theorem runInstrs_append {is js : List Instr} (h : runInstrs is s = .next u) :
    runInstrs (is ++ js) s = runInstrs js u := by
  induction is generalizing s with
  | nil => rw [List.nil_append, Host.Outcome.next.inj h]
  | cons i is ih =>
    cases hexec : exec i s with
    | next v =>
      rw [List.cons_append, runInstrs_cons hexec]
      exact ih ((runInstrs_cons hexec).symm.trans h)
    | fault f => simp [runInstrs, hexec] at h
    | refused r => simp [runInstrs, hexec] at h

end Sys2Proof.Machine
end

section
/-! PROOFS. The invariant, one lemma per operation on the state. `Inv` speaks of some fields only, and an update of other
fields keeps it as it stands. -/

namespace Sys2Proof.Machine

variable {s : State}

/-! ### Updates the invariant does not see -/

theorem inv_takeTurn (h : Inv s) : Inv s.takeTurn := by
  unfold State.takeTurn
  split <;> exact h

theorem inv_respond (v : Word) (h : Inv s) : Inv (respond v s) := h

theorem inv_refuseAccess (h : Inv s) : Inv (refuseAccess s) := h

theorem inv_flagCmdErr (h : Inv s) : Inv (flagCmdErr s) := h

/-! ### Reset and fatal entry -/

/-- The reset state meets the invariant, for every valid setting (R174). -/
theorem inv_resetWith {p : Params} (hp : p.Valid) : Inv (State.resetWith p) := by
  obtain ⟨-, -, -, -, ⟨htick, -⟩, -, hprescale, -⟩ := id hp
  refine ⟨hp, ?mem, ?header, ?life, ?err, ⟨rfl, rfl⟩, ⟨htick, Nat.zero_le _, hprescale, Nat.zero_le _⟩, ?line⟩
  case mem => simp [InvMem, State.resetWith, Mem.wf]
  case header => simp [InvHeader, State.resetWith]
  case life => simp [InvLife, State.resetWith]
  case err => simp [InvErr, State.resetWith]
  case line => simp [InvLine, State.resetWith]

theorem inv_applyReset (h : Inv s) : Inv (applyReset s) := inv_resetWith h.1

/-- R150: the codes of the causes are 1 to 8. -/
theorem Cause.code_bounds (c : Cause) : 1 ≤ c.code.toNat ∧ c.code.toNat ≤ 8 := by cases c <;> decide

theorem inv_enterFatal (c : Cause) (info : Word) (h : Inv s) : Inv (enterFatal c info s) := by
  obtain ⟨hcfg, hmem, hheader, ⟨-, -, -, hlut, -⟩, -, hpwm, htimers, hlen, hovf, hbuf, htxq, -⟩ := h
  exact ⟨hcfg, hmem, hheader, ⟨by simp, by simp, by simp, hlut, by simp⟩, ⟨fun _ => c.code_bounds, by simp⟩, hpwm,
    htimers, hlen, hovf, hbuf, htxq, by simp⟩

theorem inv_checkDriver (info : Word) (h : Inv s) : Inv (checkDriver info s) := by
  rcases checkDriver_cases info s with ⟨-, heq⟩ | ⟨-, heq⟩ <;> rw [heq]
  · exact h
  · exact inv_enterFatal _ _ h

/-! ### Loader (R96, R97) -/

/-- In LOAD nothing of the lifecycle's guarantees is at stake but that the LUT is not valid (R53). -/
theorem invLife_of_load (hlife : s.life = .load) (hlut : s.lutValid = false) : InvLife s := by
  simp [InvLife, hlife, hlut]

theorem Mem.below.mono {w m n : Nat} {mem : Mem w} (h : Mem.below mem m) (hmn : m ≤ n) : Mem.below mem n :=
  fun c hc => (h c hc).trans_le hmn

/-- R96: no sample is stored while LEN is 0, so the bound that the fourth header byte gives holds of the memories. -/
theorem inv_advancePos_headerByte (b : Byte) (h : Inv s) (hlife : s.life = .load) (hpos : s.pos.toNat < 4) :
    Inv (advancePos (headerByte b s)) := by
  obtain ⟨hcfg, ⟨hsample, hlut, hlineBuf⟩, ⟨hbefore, -⟩, ⟨hlutValid, -⟩, herr, hpwm, htimers, hline⟩ := h
  obtain ⟨hdecl, hlen, htrunc⟩ := hbefore hpos
  have hadvance := advancePos_toNat_of_lt (s := headerByte b s) (by rwa [headerByte_pos])
  rw [headerByte_pos] at hadvance
  by_cases hthree : s.pos.toNat = 3
  · rw [headerByte_of_eq_three b hthree] at hadvance ⊢
    have hgrow (n : Nat) : s.len.toNat ≤ n := by simp [hlen]
    refine ⟨hcfg, ⟨⟨hsample.1, Mem.below.mono hsample.2 (hgrow _)⟩, ⟨hlut.1, Mem.below.mono hlut.2 (hgrow _)⟩, hlineBuf⟩,
      ⟨fun hlt => by omega, fun _ => ⟨?_, rfl⟩⟩, invLife_of_load hlife (hlutValid (.inl hlife)), herr, hpwm, htimers,
      hline⟩
    exact Nat.mod_eq_of_lt (lt_of_le_of_lt (Nat.min_le_left _ _) (shiftIn s.countSr b).isLt)
  · rw [headerByte_of_ne_three b hthree] at hadvance ⊢
    exact ⟨hcfg, ⟨hsample, hlut, hlineBuf⟩, ⟨fun _ => ⟨hdecl, hlen, htrunc⟩, fun hge => by omega⟩,
      invLife_of_load hlife (hlutValid (.inl hlife)), herr, hpwm, htimers, hline⟩

/-- A byte after the header moves `pos` only as far as the invariant goes. -/
theorem inv_advancePos (h : Inv s) (hlife : s.life = .load) (hpos : 4 ≤ s.pos.toNat) : Inv (advancePos s) := by
  obtain ⟨hcfg, hmem, ⟨-, hafter⟩, ⟨hlutValid, -⟩, herr, hpwm, htimers, hline⟩ := h
  have hge := hpos.trans (le_advancePos_toNat s)
  exact ⟨hcfg, hmem, ⟨fun hlt => absurd hlt hge.not_gt, fun _ => hafter hpos⟩,
    invLife_of_load hlife (hlutValid (.inl hlife)), herr, hpwm, htimers, hline⟩

theorem inv_writeSample {k : Nat} (v : Word) (h : Inv s) (hk : k < s.len.toNat) :
    Inv { s with sample := s.sample.write k v } := by
  obtain ⟨hcfg, ⟨⟨hwf, hbelow⟩, hlut, hlineBuf⟩, hrest⟩ := h
  exact ⟨hcfg, ⟨⟨Mem.wf_write _ hwf k v, Mem.below_write _ _ k v hbelow hk⟩, hlut, hlineBuf⟩, hrest⟩

theorem inv_trailing (h : Inv s) (hlife : s.life = .load) : Inv { s with trailing := true } := by
  obtain ⟨hcfg, hmem, hheader, ⟨hlutValid, -⟩, hrest⟩ := h
  exact ⟨hcfg, hmem, hheader, invLife_of_load hlife (hlutValid (.inl hlife)), hrest⟩

theorem acceptByte_meets_inv (b : Byte) (h : Inv s) (hlife : s.life = .load) : NextMeets Inv (acceptByte b s) := by
  unfold acceptByte
  split
  · exact nextMeets_next.2 (inv_advancePos_headerByte b h hlife ‹_›)
  · have hpos : 4 ≤ s.pos.toNat := by omega
    rcases payloadByte_cases (b := b) (s := s) rfl with
      ⟨hk, -, -, heq⟩ | ⟨-, -, -, heq⟩ | ⟨-, -, heq⟩ | ⟨-, -, heq⟩ | ⟨-, -, heq⟩ <;> rw [heq]
    · exact nextMeets_next.2 (inv_advancePos (inv_writeSample _ h hk) hlife hpos)
    · exact nextMeets_fault _
    · exact nextMeets_next.2 (inv_advancePos h hlife hpos)
    · exact nextMeets_next.2 (inv_advancePos (inv_trailing h hlife) hlife hpos)
    · exact nextMeets_next.2 (inv_advancePos h hlife hpos)

/-- R97: the checks leave a waveform with at least one sample, all of it accepted and nothing after it. -/
theorem committed_of_commitError_eq_none (h : Inv s) (hnone : commitError s = none) : Committed s := by
  obtain ⟨hpos, hdecl, hshort, htrailing⟩ := commitError_eq_none.1 hnone
  obtain ⟨⟨⟨hcap, -⟩, -⟩, -, ⟨-, hafter⟩, -⟩ := h
  have hlen := (hafter hpos).1
  have hdecl' : s.declCount.toNat ≠ 0 := fun h0 => hdecl (BitVec.eq_of_toNat_eq h0)
  exact ⟨by omega, hshort, htrailing⟩

/-- With a committed waveform the block may go on to LOADED, and from there to SCALING: the two guarantee the same. -/
theorem inv_enterLoadedOrScaling {l : Lifecycle} (h : Inv s) (hcommitted : Committed s)
    (hlife : s.life = .load ∨ s.life = .loaded) (hl : l = .loaded ∨ l = .scaling) : Inv { s with life := l } := by
  obtain ⟨hcfg, hmem, hheader, ⟨hlutValid, -, -, hlut, -⟩, ⟨-, herr⟩, hpwm, htimers, hlen, hovf, hbuf, htxq, hpend⟩ := h
  have hs : s.life ≠ .running ∧ s.life ≠ .fatal := by rcases hlife with hlife | hlife <;> simp [hlife]
  have hl' : l ≠ .scaled ∧ l ≠ .running ∧ l ≠ .fatal := by rcases hl with rfl | rfl <;> simp
  exact ⟨hcfg, hmem, hheader,
    ⟨fun _ => hlutValid (hlife.imp_right .inl), fun _ => hcommitted, by simp [hl'], hlut, by simp [hl']⟩,
    ⟨by simp [hl'], fun _ => herr hs.2⟩, hpwm, htimers, hlen, hovf, hbuf, htxq, fun hp => by simpa [hs] using hpend hp⟩

theorem inv_commit (h : Inv s) (hlife : s.life = .load) : Inv (commit s) := by
  rcases commit_cases s with ⟨c, heq⟩ | ⟨hnone, heq⟩ <;> rw [heq]
  · exact inv_enterFatal _ _ h
  · exact inv_enterLoadedOrScaling h (committed_of_commitError_eq_none h hnone) (.inl hlife) (.inl rfl)

/-! ### Scaler (R104, R105) -/

/-- A committed waveform is in use from LOADED to RUNNING (R97). -/
theorem Inv.committed (h : Inv s)
    (hlife : s.life = .loaded ∨ s.life = .scaling ∨ s.life = .scaled ∨ s.life = .running) : Committed s := by
  obtain ⟨-, -, -, ⟨-, hcommitted, -⟩, -⟩ := h
  exact hcommitted hlife

theorem inv_enterScaling (h : Inv s) (hlife : s.life = .loaded) : Inv { s with life := .scaling } :=
  inv_enterLoadedOrScaling h (h.committed (.inl hlife)) (.inr hlife) (.inr rfl)

/-- R109: a series of one sample is degenerate, so a LUT has at least two entries. -/
theorem two_le_length_of_lutOf {form : ShiftForm} {mb dr w : Word} {ws : List Word} {ds : List Duty}
    (h : lutOf form mb dr w ws = some ds) : 2 ≤ ds.length := by
  rw [lutOf_length h]
  cases ws with
  | nil => simp [lutOf_eq_none.2 (show ∀ x ∈ ([] : List Word), F64.ofBin32 x = F64.ofBin32 w by simp)] at h
  | cons x xs => simp

/-- The finished LUT fills the entries below LEN and makes the block SCALED (R105, R113). -/
theorem inv_storeLut {ds : List Duty} (h : Inv s) (hlife : s.life = .scaling) (hds : ds.length = s.len.toNat)
    (htwo : 2 ≤ ds.length) : Inv { s with lut := s.lut.writeList 0 ds, lutValid := true, life := .scaled } := by
  obtain ⟨hcfg, ⟨hsample, ⟨hwf, hbelow⟩, hlineBuf⟩, hheader, ⟨-, hcommitted, -⟩, ⟨-, herr⟩, hpwm, htimers, hlen, hovf,
    hbuf, htxq, hpend⟩ := h
  have hlut := Mem.below_writeList ds s.lut 0 s.len.toNat hbelow (by rw [Nat.zero_add, hds])
  exact ⟨hcfg, ⟨hsample, ⟨Mem.wf_writeList ds _ 0 hwf, hlut⟩, hlineBuf⟩, hheader,
    ⟨by simp, fun _ => hcommitted (.inr (.inl hlife)), fun _ => rfl, fun _ => hds ▸ htwo, by simp⟩,
    ⟨by simp, fun _ => herr (by simp [hlife])⟩, hpwm, htimers, hlen, hovf, hbuf, htxq,
    fun hp => by simpa [hlife] using hpend hp⟩

theorem inv_scaleSamples {w : Word} {ws : List Word} (h : Inv s) (hlife : s.life = .scaling)
    (hlen : (w :: ws).length = s.len.toNat) : Inv (scaleSamples w ws s) := by
  rcases scaleSamples_cases w ws s with ⟨i, -, heq⟩ | ⟨-, -, heq⟩ | ⟨ds, -, hlut, heq⟩ <;> rw [heq]
  · exact inv_enterFatal _ _ h
  · exact inv_enterFatal _ _ h
  · exact inv_storeLut h hlife ((lutOf_length hlut).trans hlen) (two_le_length_of_lutOf hlut)

theorem execScalerStep_meets_inv (h : Inv s) : NextMeets Inv (execScalerStep s) := by
  rcases execScalerStep_cases s with
    ⟨-, heq⟩ | ⟨-, -, heq⟩ | ⟨-, -, heq⟩ | ⟨-, -, heq⟩ | ⟨w, ws, hlife, -, -, -, hws, heq⟩ <;> rw [heq]
  · exact nextMeets_next.2 h
  · exact nextMeets_next.2 (inv_enterFatal _ _ h)
  · exact nextMeets_fault _
  · exact nextMeets_fault _
  · exact nextMeets_next.2 (inv_scaleSamples h hlife (by simp [hws]))

/-! ### Player (R118 to R121) -/

theorem inv_clearTimers (h : Inv s) : Inv { s with tb := 0, cp := 0 } := by
  obtain ⟨hcfg, hmem, hheader, hlife, herr, hpwm, ⟨-, -, hpresc⟩, hline⟩ := h
  obtain ⟨-, -, -, -, ⟨htick, -⟩, -⟩ := id hcfg
  exact ⟨hcfg, hmem, hheader, hlife, herr, hpwm, ⟨htick, Nat.zero_le _, hpresc⟩, hline⟩

/-- R118, R119: with entry `i` of the LUT on both channels and `i` in TIME_INDEX the block may be RUNNING. -/
theorem inv_writeDuty {i : Nat} {l : Lifecycle} (h : Inv s) (hlife : s.life = .scaled ∨ s.life = .running)
    (hl : l = .running) (hi : i < s.len.toNat) :
    Inv (writeDuty (s.lut.read i) { s with life := l, timeIndex := BitVec.ofNat 32 i }) := by
  subst hl
  obtain ⟨hcfg, hmem, hheader, ⟨-, hcommitted, hlutValid, hlut, -⟩, ⟨-, herr⟩, ⟨-, hactive⟩, htimers, hlen, hovf,
    hbuf, htxq, -⟩ := h
  have hindex : (BitVec.ofNat 32 i).toNat = i := by
    rw [BitVec.toNat_ofNat]
    exact Nat.mod_eq_of_lt (hi.trans s.len.isLt)
  refine ⟨hcfg, hmem, hheader,
    ⟨by simp, fun _ => hcommitted (.inr (.inr hlife)), fun _ => hlutValid hlife, hlut, fun _ => ?_⟩,
    ⟨by simp, fun _ => herr ?_⟩, ⟨rfl, hactive⟩, htimers, hlen, hovf, hbuf, htxq, fun _ => .inl rfl⟩
  · rw [writeDuty_timeIndex, hindex]
    exact ⟨hi, rfl⟩
  · rcases hlife with hlife | hlife <;> simp [hlife]

theorem startPlayback_meets_inv (h : Inv s) (hlife : s.life = .scaled) : NextMeets Inv (startPlayback s) := by
  rcases startPlayback_cases s with ⟨-, heq⟩ | ⟨-, heq⟩ <;> rw [heq]
  · exact nextMeets_next.2
      (inv_checkDriver _ (inv_writeDuty (inv_clearTimers h) (.inl hlife) rfl (h.committed (.inr (.inr (.inl hlife)))).1))
  · exact nextMeets_fault _

theorem execTickStep_meets_inv (h : Inv s) : NextMeets Inv (execTickStep s) := by
  rcases execTickStep_cases s with ⟨-, heq⟩ | ⟨hlife, -, -, -, heq⟩ | ⟨-, -, -, f, heq⟩ <;> rw [heq]
  · exact nextMeets_next.2 h
  · have hi : s.nextIndex < s.len.toNat := Nat.mod_lt _ (h.committed (.inr (.inr (.inr hlife)))).1
    exact nextMeets_next.2 (inv_checkDriver _ (inv_writeDuty h (.inr hlife) hlife hi))
  · exact nextMeets_fault _

theorem inv_tickPend (b : Bool) (h : Inv s) : Inv { s with tickPend := b } := h

theorem inv_pwmReload (h : Inv s) : Inv { s with active0 := s.pwm0Duty, active1 := s.pwm1Duty } := by
  obtain ⟨hcfg, hmem, hheader, hlife, herr, ⟨hduty, -⟩, htimers, hline⟩ := h
  exact ⟨hcfg, hmem, hheader, hlife, herr, ⟨hduty, hduty⟩, htimers, hline⟩

/-! ### Command task (R125 to R131) -/

theorem inv_completeLine (h : Inv s) (hlife : s.life = .running) : Inv { s with linePend := true } := by
  obtain ⟨hcfg, hmem, hheader, hlife', herr, hpwm, htimers, hlen, hovf, hbuf, htxq, -⟩ := h
  exact ⟨hcfg, hmem, hheader, hlife', herr, hpwm, htimers, hlen, hovf, hbuf, htxq, fun _ => .inl hlife⟩

theorem inv_keepLineByte {b : Byte} (h : Inv s) (hb : b ≠ lfByte) (hroom : s.lineLen.toNat < s.cfg.lineMax) :
    Inv { s with lineBuf := Mem.write (w := 8) s.lineBuf s.lineLen.toNat b, lineLen := s.lineLen + 1 } := by
  obtain ⟨hcfg, ⟨hsample, hlut, hwf, hbelow⟩, hheader, hlife, herr, hpwm, htimers, -, hovf, hbuf, htxq, hpend⟩ := h
  obtain ⟨-, ⟨-, hlineMax⟩, -⟩ := id hcfg
  have hnext : (s.lineLen + 1).toNat = s.lineLen.toNat + 1 := by
    rw [BitVec.toNat_add]
    exact Nat.mod_eq_of_lt (by simp; omega)
  refine ⟨hcfg, ⟨hsample, hlut, Mem.wf_write _ hwf _ b, Mem.below_write _ _ _ b hbelow hroom⟩, hheader, hlife, herr, hpwm,
    htimers, hnext ▸ hroom, fun ho => absurd (hovf ho) hroom.ne, fun c hc => ?_, htxq, hpend⟩
  rcases Mem.mem_write _ _ _ c hc with hold | rfl
  · exact hbuf c hold
  · exact hb

theorem inv_overflowLine (h : Inv s) (hfull : ¬s.lineLen.toNat < s.cfg.lineMax) : Inv { s with lineOvf := true } := by
  obtain ⟨hcfg, hmem, hheader, hlife, herr, hpwm, htimers, hlen, -, hbuf, htxq, hpend⟩ := h
  exact ⟨hcfg, hmem, hheader, hlife, herr, hpwm, htimers, hlen, fun _ => hlen.antisymm (not_lt.1 hfull), hbuf, htxq,
    hpend⟩

theorem execRxAccept_meets_inv (b : Byte) (h : Inv s) : NextMeets Inv (execRxAccept b s) := by
  rcases execRxAccept_cases b s with ⟨-, heq⟩ | ⟨hlife, -, ⟨-, heq⟩ | ⟨hb, hroom, heq⟩ | ⟨-, hfull, heq⟩⟩ <;>
    rw [heq]
  · exact nextMeets_next.2 h
  · exact nextMeets_next.2 (inv_completeLine h hlife)
  · exact nextMeets_next.2 (inv_keepLineByte h hb hroom)
  · exact nextMeets_next.2 (inv_overflowLine h hfull)

theorem inv_finishLine {c : Command} {t : List Byte} {ovf : Bool} (h : Inv s) (hroom : 16 + t.length ≤ s.txFree) :
    Inv (finishLine c t ovf s) := by
  obtain ⟨hcfg, hmem, hheader, hlife, herr, hpwm, ⟨htb, -, hpresc⟩, -, -, hbuf, htxq, -⟩ := h
  refine ⟨hcfg, hmem, hheader, hlife, herr, hpwm, ⟨htb, Nat.zero_le _, hpresc⟩, Nat.zero_le _, by simp, hbuf, ?_, by simp⟩
  rw [finishLine_txq, finishLine_cfg, List.length_append, echo_length]
  unfold State.txFree at hroom
  omega

theorem inv_applyCommand (c : Command) (h : Inv s) : Inv (applyCommand c s) := by
  obtain ⟨r, heq | ⟨-, -, heq⟩⟩ := applyCommand_cases c s <;> rw [heq]
  · exact h
  · exact inv_enterFatal _ _ (s := { s with relay := r }) h

theorem inv_dispatchAs (c : Command) (t : List Byte) (ovf : Bool) (h : Inv s) : Inv (dispatchAs c t ovf s) := by
  rcases dispatchAs_cases c t ovf s with ⟨-, heq⟩ | ⟨-, -, hroom, heq⟩ <;> rw [heq]
  · exact h
  · exact inv_applyCommand c (inv_finishLine h hroom)

theorem execDispatch_meets_inv (h : Inv s) : NextMeets Inv (execDispatch s) := by
  rcases execDispatch_cases s with ⟨-, heq⟩ | ⟨-, -, -, heq⟩ | ⟨-, -, -, c, t, -, heq⟩ <;> rw [heq]
  · exact nextMeets_next.2 h
  · exact nextMeets_fault _
  · exact nextMeets_next.2 (inv_dispatchAs c t s.lineOvf h)

theorem inv_departByte (h : Inv s) : Inv { s with txq := s.txq.tail } := by
  obtain ⟨hcfg, hmem, hheader, hlife, herr, hpwm, htimers, hlen, hovf, hbuf, htxq, hpend⟩ := h
  have htail : s.txq.tail.length ≤ s.txq.length := by simp
  exact ⟨hcfg, hmem, hheader, hlife, herr, hpwm, htimers, hlen, hovf, hbuf, htail.trans htxq, hpend⟩

/-! ### The clock (R120, R121, R130) -/

/-- A counter in its range, not at its last value, stays in range when it counts up. -/
theorem toNat_succ_lt {w n : Nat} {x : BitVec w} (hx : x.toNat < n) (hlast : x.toNat ≠ n - 1) : (x + 1).toNat < n :=
  calc (x + 1).toNat ≤ x.toNat + (1 : BitVec w).toNat := Nat.mod_le _ _
    _ ≤ x.toNat + 1 := Nat.add_le_add_left (Nat.mod_le 1 _) _
    _ < n := by omega

theorem toNat_pred_le {x : Word} (hx : x ≠ 0) : (x - 1).toNat ≤ x.toNat := by bv_omega

theorem inv_clockTimebase (h : Inv s) : Inv (clockTimebase s) := by
  rw [clockTimebase_eq]
  obtain ⟨hcfg, hmem, hheader, hlife, herr, hpwm, ⟨htb, htimers⟩, hline⟩ := h
  obtain ⟨-, -, -, -, ⟨htickPos, -⟩, -⟩ := id hcfg
  refine ⟨hcfg, hmem, hheader, hlife, herr, hpwm, ⟨?_, htimers⟩, hline⟩
  dsimp only
  split
  · split
    · exact htickPos
    · exact toNat_succ_lt htb ‹_›
  · exact htb

theorem inv_clockPoll (h : Inv s) : Inv (clockPoll s) := by
  rw [clockPoll_eq]
  obtain ⟨hcfg, hmem, hheader, hlife, herr, hpwm, ⟨htb, hcp, htimers⟩, hline⟩ := h
  refine ⟨hcfg, hmem, hheader, hlife, herr, hpwm, ⟨htb, ?_, htimers⟩, hline⟩
  dsimp only
  split
  · split
    · exact (toNat_pred_le ‹_›).trans hcp
    · split
      · exact hcp
      · rw [BitVec.toNat_ofNat]
        exact Nat.mod_le _ _
  · exact hcp

theorem inv_clockPwm (h : Inv s) : Inv (clockPwm s) := by
  rw [clockPwm_eq]
  obtain ⟨hcfg, hmem, hheader, hlife, herr, ⟨hduty, hactive⟩, ⟨htb, hcp, hpresc, hcnt⟩, hline⟩ := h
  obtain ⟨-, -, -, -, -, -, hprescPos, -⟩ := id hcfg
  refine ⟨hcfg, hmem, hheader, hlife, herr, ⟨hduty, ?active⟩, ⟨htb, hcp, ?presc, ?cnt⟩, hline⟩ <;> dsimp only
  case active =>
    split
    · exact hduty
    · exact hactive
  case presc =>
    split
    · exact hprescPos
    · exact toNat_succ_lt hpresc ‹_›
  case cnt =>
    split
    · split
      · decide
      · rename_i hlast
        have hne : s.pwmCnt.toNat ≠ 65535 - 1 := fun heq => hlast (BitVec.eq_of_toNat_eq heq)
        exact Nat.le_of_lt_succ (toNat_succ_lt (Nat.lt_succ_of_le hcnt) hne)
    · exact hcnt

theorem inv_clockCycle (h : Inv s) : Inv (clockCycle s) := inv_clockPwm (inv_clockPoll (inv_clockTimebase h))

/-! ### Every operation and every step -/

theorem gatedWrite_meets_inv {legal : Bool} {effect : State → Result} (h : Inv s)
    (heffect : legal = true → NextMeets Inv (effect s)) : NextMeets Inv (completeWrite (gated legal effect s)) :=
  nextMeets_gatedWrite (fun _ => inv_respond 0) (inv_flagCmdErr h) heffect

theorem exec_meets_inv (i : Instr) (h : Inv s) : NextMeets Inv (exec i s) := by
  cases i with
  | busMisalignedW | busMisalignedR | busPartial | busUnmappedW | busUnmappedR =>
    exact nextMeets_next.2 (inv_refuseAccess h)
  | nop | wrRo | cmdIllegal | wrStatus | wrTblAddr | wrIrqEn | rd | rdWo => exact nextMeets_next.2 (inv_respond _ h)
  | rdLut => exact nextMeets_execRdLut fun v => inv_respond v h
  | rdSample => exact nextMeets_execRdSample fun v => inv_respond v h
  | wrMaxBright | wrDynRange => exact gatedWrite_meets_inv h fun _ => nextMeets_next.2 h
  | ldb b => exact gatedWrite_meets_inv h fun hlife => acceptByte_meets_inv b h (beq_iff_eq.1 hlife)
  | loadCommit => exact gatedWrite_meets_inv h fun hlife => nextMeets_next.2 (inv_commit h (beq_iff_eq.1 hlife))
  | scale => exact gatedWrite_meets_inv h fun hlife => nextMeets_next.2 (inv_enterScaling h (beq_iff_eq.1 hlife))
  | start => exact gatedWrite_meets_inv h fun hlife => startPlayback_meets_inv h (beq_iff_eq.1 hlife)
  | scalerStep => exact execScalerStep_meets_inv h
  | tickDue =>
    refine nextMeets_next.2 ?_
    split
    · exact inv_tickPend true h
    · exact h
  | tickStep => exact execTickStep_meets_inv h
  | pwmReload => exact nextMeets_next.2 (inv_pwmReload h)
  | rxAccept b => exact execRxAccept_meets_inv b h
  | lineOn | lineOff | lineOther => exact nextMeets_next.2 (inv_dispatchAs _ _ _ h)
  | dispatch => exact execDispatch_meets_inv h
  | txDepart =>
    refine nextMeets_next.2 ?_
    split
    · exact inv_departByte h
    · exact h
  | reset => exact nextMeets_next.2 (inv_applyReset h)

theorem step_meets_inv (h : Inv s) : NextMeets Inv (step s) := by
  rcases step_cases (s := s) rfl with ⟨i, -, heq⟩ | ⟨-, heq⟩ | ⟨-, heq⟩ <;> rw [heq]
  · exact exec_meets_inv i (inv_takeTurn h)
  · exact nextMeets_next.2 (inv_clockCycle (inv_takeTurn h))
  · exact nextMeets_next.2 (inv_takeTurn h)

end Sys2Proof.Machine

namespace Sys2Proof.Proofs

open Sys2Proof Sys2Proof.Machine

/-- Settles O58: the turn's operation or clock cycle keeps the invariant, and taking the turn does not touch it. -/
theorem stepKeepsInv : Obligations.StepKeepsInv := fun _ t h ht => step_meets_inv h t ht

end Sys2Proof.Proofs
end

section
/-! PROOFS. R24: which lifecycle transitions an operation can make. -/

namespace Sys2Proof.Machine

variable {s : State}

/-- `t`'s lifecycle state is that of `s`, or one that R24 lists after it for a step that is no reset. -/
def MovesFrom (s t : State) : Prop :=
  t.life ≠ s.life →
    (s.life, t.life) ∈ [(.load, .loaded), (.load, .fatal), (.loaded, .scaling), (.scaling, .scaled), (.scaling, .fatal),
      (.scaled, .running), (.scaled, .fatal), (Lifecycle.running, Lifecycle.fatal)]

theorem movesFrom_of_life_eq {t : State} (h : t.life = s.life) : MovesFrom s t := fun hne => absurd h hne

/-- From every state that can fail, fatal entry is a listed transition (R156). -/
theorem movesFrom_of_fatal {t : State} (ht : t.life = .fatal)
    (hs : s.life = .load ∨ s.life = .scaling ∨ s.life = .scaled ∨ s.life = .running) : MovesFrom s t := by
  rcases hs with hs | hs | hs | hs <;> simp [MovesFrom, hs, ht]

/-- LDB stays in LOAD (R96). -/
theorem acceptByte_life (b : Byte) (s : State) : NextMeets (fun t => t.life = s.life) (acceptByte b s) := by
  unfold acceptByte
  split
  · exact nextMeets_next.2 (by rw [advancePos_life, headerByte_life])
  · rcases payloadByte_cases (b := b) (s := s) rfl with
      ⟨-, -, -, heq⟩ | ⟨-, -, -, heq⟩ | ⟨-, -, heq⟩ | ⟨-, -, heq⟩ | ⟨-, -, heq⟩ <;> rw [heq]
    case inr.inl => exact nextMeets_fault _
    all_goals exact nextMeets_next.2 rfl

theorem commit_moves (hlife : s.life = .load) : MovesFrom s (commit s) := by
  rcases commit_cases s with ⟨c, heq⟩ | ⟨-, heq⟩ <;> rw [heq]
  · exact movesFrom_of_fatal rfl (.inl hlife)
  · simp [MovesFrom, hlife]

theorem execScalerStep_moves (s : State) : NextMeets (MovesFrom s) (execScalerStep s) := by
  rcases execScalerStep_cases s with
    ⟨-, heq⟩ | ⟨hlife, -, heq⟩ | ⟨-, -, heq⟩ | ⟨-, -, heq⟩ | ⟨w, ws, hlife, -, -, -, -, heq⟩ <;> rw [heq]
  · exact nextMeets_next.2 (movesFrom_of_life_eq rfl)
  · exact nextMeets_next.2 (movesFrom_of_fatal rfl (.inr (.inl hlife)))
  · exact nextMeets_fault _
  · exact nextMeets_fault _
  · refine nextMeets_next.2 ?_
    rcases scaleSamples_cases w ws s with ⟨i, -, heq⟩ | ⟨-, -, heq⟩ | ⟨ds, -, -, heq⟩ <;> rw [heq]
    · exact movesFrom_of_fatal rfl (.inr (.inl hlife))
    · exact movesFrom_of_fatal rfl (.inr (.inl hlife))
    · simp [MovesFrom, hlife]

theorem startPlayback_moves (hlife : s.life = .scaled) : NextMeets (MovesFrom s) (startPlayback s) := by
  rcases startPlayback_cases s with ⟨-, heq⟩ | ⟨-, heq⟩ <;> rw [heq]
  · refine nextMeets_next.2 ?_
    rcases checkDriver_cases 0 (writeDuty (s.lut.read 0) _) with ⟨-, heq⟩ | ⟨-, heq⟩ <;> rw [heq]
    · simp [MovesFrom, hlife]
    · exact movesFrom_of_fatal rfl (.inr (.inr (.inl hlife)))
  · exact nextMeets_fault _

theorem execTickStep_moves (s : State) : NextMeets (MovesFrom s) (execTickStep s) := by
  rcases execTickStep_cases s with ⟨-, heq⟩ | ⟨hlife, -, -, -, heq⟩ | ⟨-, -, -, f, heq⟩ <;> rw [heq]
  · exact nextMeets_next.2 (movesFrom_of_life_eq rfl)
  · refine nextMeets_next.2 ?_
    rcases checkDriver_cases 0 (writeDuty (s.lut.read s.nextIndex) _) with ⟨-, heq⟩ | ⟨-, heq⟩ <;> rw [heq]
    · exact movesFrom_of_life_eq rfl
    · exact movesFrom_of_fatal rfl (.inr (.inr (.inr hlife)))
  · exact nextMeets_fault _

theorem execRxAccept_life (b : Byte) (s : State) : NextMeets (fun t => t.life = s.life) (execRxAccept b s) := by
  rcases execRxAccept_cases b s with ⟨-, heq⟩ | ⟨-, -, ⟨-, heq⟩ | ⟨-, -, heq⟩ | ⟨-, -, heq⟩⟩ <;> rw [heq] <;>
    exact nextMeets_next.2 rfl

theorem dispatchAs_moves (c : Command) (t : List Byte) (ovf : Bool) (s : State) : MovesFrom s (dispatchAs c t ovf s) := by
  rcases dispatchAs_cases c t ovf s with ⟨-, heq⟩ | ⟨hlife, -, -, heq⟩ <;> rw [heq]
  · exact movesFrom_of_life_eq rfl
  · obtain ⟨r, heq | ⟨-, -, heq⟩⟩ := applyCommand_cases c (finishLine c t ovf s) <;> rw [heq]
    · exact movesFrom_of_life_eq rfl
    · exact movesFrom_of_fatal rfl (.inr (.inr (.inr hlife)))

theorem execDispatch_moves (s : State) : NextMeets (MovesFrom s) (execDispatch s) := by
  rcases execDispatch_cases s with ⟨-, heq⟩ | ⟨-, -, -, heq⟩ | ⟨-, -, -, c, t, -, heq⟩ <;> rw [heq]
  · exact nextMeets_next.2 (movesFrom_of_life_eq rfl)
  · exact nextMeets_fault _
  · exact nextMeets_next.2 (dispatchAs_moves c t s.lineOvf s)

theorem clockCycle_life (s : State) : (clockCycle s).life = s.life := by
  rw [clockCycle, clockPwm_eq, clockPoll_eq, clockTimebase_eq]

theorem gatedWrite_moves {legal : Bool} {effect : State → Result}
    (heffect : legal = true → NextMeets (MovesFrom s) (effect s)) :
    NextMeets (MovesFrom s) (completeWrite (gated legal effect s)) :=
  nextMeets_gatedWrite (fun _ hu => hu) (movesFrom_of_life_eq rfl) heffect

theorem exec_moves (i : Instr) (hi : i ≠ .reset) (s : State) : NextMeets (MovesFrom s) (exec i s) := by
  cases i with
  | busMisalignedW | busMisalignedR | busPartial | busUnmappedW | busUnmappedR | nop | wrRo | cmdIllegal | wrStatus
  | wrTblAddr | wrIrqEn | rd | rdWo | pwmReload =>
    exact nextMeets_next.2 (movesFrom_of_life_eq rfl)
  | rdLut => exact nextMeets_execRdLut fun _ => movesFrom_of_life_eq rfl
  | rdSample => exact nextMeets_execRdSample fun _ => movesFrom_of_life_eq rfl
  | wrMaxBright | wrDynRange => exact gatedWrite_moves fun _ => nextMeets_next.2 (movesFrom_of_life_eq rfl)
  | ldb b => exact gatedWrite_moves fun _ t ht => movesFrom_of_life_eq (acceptByte_life b s t ht)
  | loadCommit => exact gatedWrite_moves fun hlife => nextMeets_next.2 (commit_moves (beq_iff_eq.1 hlife))
  | scale =>
    refine gatedWrite_moves fun hlife => nextMeets_next.2 ?_
    simp [MovesFrom, beq_iff_eq.1 hlife]
  | start => exact gatedWrite_moves fun hlife => startPlayback_moves (beq_iff_eq.1 hlife)
  | scalerStep => exact execScalerStep_moves s
  | tickStep => exact execTickStep_moves s
  | rxAccept b => exact fun t ht => movesFrom_of_life_eq (execRxAccept_life b s t ht)
  | lineOn | lineOff | lineOther => exact nextMeets_next.2 (dispatchAs_moves _ _ _ s)
  | dispatch => exact execDispatch_moves s
  | tickDue | txDepart =>
    refine nextMeets_next.2 (movesFrom_of_life_eq ?_)
    split <;> rfl
  | reset => exact absurd rfl hi

/-! ### A reset comes from `rst` only -/

theorem decodeRegWrite_ne_reset (r : Reg) (v : Word) : decodeRegWrite r v ≠ .reset := by
  cases r
  case cmd =>
    unfold decodeRegWrite decodeCmd
    split_ifs <;> nofun
  all_goals nofun

theorem decodeRegRead_ne_reset (r : Reg) : decodeRegRead r ≠ .reset := by cases r <;> nofun

/-- R91: no bus word is a reset. -/
theorem decode_busWireOf_ne_reset (p : Inputs) : decode (busWireOf p) ≠ .reset := by
  unfold busWireOf
  split
  · rw [Laws.decode_buswWord]
    rcases Laws.decodeW_cases p.busWstrb p.busAddr p.busWdata with
      ⟨-, heq⟩ | ⟨-, -, heq⟩ | ⟨-, -, -, heq⟩ | ⟨r, -, -, heq⟩ <;> rw [heq]
    case inr.inr.inr => exact decodeRegWrite_ne_reset r _
    all_goals nofun
  · show decodeR p.busAddr ≠ .reset
    rcases Laws.decodeR_cases p.busAddr with ⟨-, heq⟩ | ⟨-, -, heq⟩ | ⟨r, -, heq⟩ <;> rw [heq]
    case inr.inr => exact decodeRegRead_ne_reset r
    all_goals nofun

/-- R173: with `rst = 0` no turn is a reset. -/
theorem fetch_ne_reset (a : Agent) {p : Inputs} (hrst : p.rst = false) : fetch a p ≠ .run .reset := by
  unfold fetch
  rw [if_neg (by simp [hrst])]
  cases a <;> dsimp only
  case host =>
    split
    · exact fun heq => decode_busWireOf_ne_reset p (Fetched.run.inj heq)
    · nofun
  case rxenv => split <;> nofun
  all_goals nofun

theorem step_moves (hrst : s.nextTurn.inputs.rst = false) : NextMeets (MovesFrom s) (step s) := by
  rcases step_cases (s := s) rfl with ⟨i, hfetch, heq⟩ | ⟨-, heq⟩ | ⟨-, heq⟩ <;> rw [heq]
  · have hi : i ≠ .reset := fun hreset => fetch_ne_reset _ hrst (hreset ▸ hfetch)
    have hmoves := exec_moves i hi s.takeTurn
    unfold MovesFrom at hmoves ⊢
    rwa [State.takeTurn_life] at hmoves
  · exact nextMeets_next.2 (movesFrom_of_life_eq (by rw [clockCycle_life, State.takeTurn_life]))
  · exact nextMeets_next.2 (movesFrom_of_life_eq (State.takeTurn_life s))

end Sys2Proof.Machine

namespace Sys2Proof.Proofs

open Sys2Proof Sys2Proof.Machine

/-- Settles O53: each operation but RESET makes a listed transition or none, and `rst = 0` keeps RESET from being run. -/
theorem lifecycleTransitions : Obligations.LifecycleTransitions :=
  fun _ t ht hrst => step_moves hrst t ht

end Sys2Proof.Proofs
end

section
/-! PROOFS. R122: playback goes round the LUT. -/

namespace Sys2Proof.Machine

variable {s u : State}

/-- R36: LEN never exceeds the capacity. -/
theorem Inv.len_le_dataCap (h : Inv s) : s.len.toNat ≤ s.cfg.dataCap := by
  obtain ⟨-, -, ⟨hbefore, hafter⟩, -⟩ := h
  by_cases hpos : s.pos.toNat < 4
  · simp [(hbefore hpos).2.1]
  · exact (hafter (not_lt.1 hpos)).1 ▸ Nat.min_le_right _ _

/-- `u` is RUNNING on the waveform, parameters and inputs of `s`, `k` ticks after the START that `s` was ready for. -/
structure PlayedFrom (s : State) (k : Nat) (u : State) : Prop where
  life : u.life = .running
  cfg : u.cfg = s.cfg
  len : u.len = s.len
  lut : u.lut = s.lut
  relay : u.relay = s.relay
  inp : u.inp = s.inp
  timeIndex : u.timeIndex.toNat = k % s.len.toNat
  pwm0Duty : u.pwm0Duty = s.lut.read (k % s.len.toNat)
  pwm1Duty : u.pwm1Duty = s.lut.read (k % s.len.toNat)
  tickCount : u.tickCount = s.tickCount + 1 + BitVec.ofNat 32 k

/-- START shows entry 0 (R118). -/
theorem exec_start_played (hlife : s.life = .scaled) (hcap : 0 < s.cfg.dataCap) (hdrv : s.inp.drvFault = false) :
    ∃ u, exec .start s = .next u ∧ PlayedFrom s 0 u := by
  have hexec : exec .start s = completeWrite (startPlayback s) := congrArg completeWrite (if_pos (beq_iff_eq.2 hlife))
  rcases startPlayback_cases s with ⟨-, heq⟩ | ⟨hzero, -⟩
  · rw [heq, checkDriver_of_not_drvFault, completeWrite_next] at hexec
    · refine ⟨_, hexec, rfl, rfl, rfl, rfl, rfl, rfl, ?_, ?_, ?_, ?_⟩ <;> simp
    · exact hdrv
  · omega

/-- TICK_DUE changes nothing that is played (R120). -/
theorem PlayedFrom.tickDue {k : Nat} (h : PlayedFrom s k u) : PlayedFrom s k { u with tickPend := true } :=
  ⟨h.life, h.cfg, h.len, h.lut, h.relay, h.inp, h.timeIndex, h.pwm0Duty, h.pwm1Duty, h.tickCount⟩

/-- The next index of R119, by the number of ticks. -/
theorem PlayedFrom.nextIndex {k : Nat} (h : PlayedFrom s k u) : u.nextIndex = (k + 1) % s.len.toNat := by
  rw [State.nextIndex, h.timeIndex, h.len, Nat.mod_add_mod]

/-- A tick step shows the next entry, modulo LEN (R119). -/
theorem exec_tickStep_played {k : Nat} (hlen : 1 ≤ s.len.toNat) (hcap : s.len.toNat ≤ s.cfg.dataCap)
    (hdrv : s.inp.drvFault = false) (h : PlayedFrom s k u) (hpend : u.tickPend = true) :
    ∃ v, exec .tickStep u = .next v ∧ PlayedFrom s (k + 1) v := by
  have hlt : u.nextIndex < s.len.toNat := h.nextIndex ▸ Nat.mod_lt _ hlen
  rcases execTickStep_cases u with ⟨hidle, -⟩ | ⟨-, -, -, -, heq⟩ | ⟨-, -, hbad, -⟩
  · exact absurd ⟨h.life, hpend⟩ hidle
  · rw [checkDriver_of_not_drvFault, h.nextIndex, h.lut] at heq
    · refine ⟨_, heq, h.life, h.cfg, h.len, rfl, h.relay, h.inp, ?_, rfl, rfl, ?_⟩
      · rw [h.nextIndex] at hlt
        rw [writeDuty_timeIndex, BitVec.toNat_ofNat]
        exact Nat.mod_eq_of_lt (hlt.trans s.len.isLt)
      · rw [writeDuty_tickCount, h.tickCount, BitVec.add_assoc, BitVec.ofNat_add]
        rfl
    · rw [writeDuty_inp, h.inp, hdrv]
  · rcases hbad with hzero | hbeyond
    · rw [h.len] at hzero
      simp [hzero] at hlen
    · rw [h.cfg] at hbeyond
      omega

/-- `@TICK` advances by one entry. -/
theorem runInstrs_tickProgram_played {k : Nat} (hlen : 1 ≤ s.len.toNat) (hcap : s.len.toNat ≤ s.cfg.dataCap)
    (hdrv : s.inp.drvFault = false) (h : PlayedFrom s k u) :
    ∃ v, runInstrs tickProgram u = .next v ∧ PlayedFrom s (k + 1) v := by
  have hdue : exec .tickDue u = .next { u with tickPend := true } := congrArg Host.Outcome.next (if_pos h.life)
  obtain ⟨v, hstep, hv⟩ := exec_tickStep_played hlen hcap hdrv h.tickDue rfl
  exact ⟨v, (runInstrs_cons hdue).trans (runInstrs_cons hstep), hv⟩

theorem runInstrs_ticks_played (hlen : 1 ≤ s.len.toNat) (hcap : s.len.toNat ≤ s.cfg.dataCap)
    (hdrv : s.inp.drvFault = false) (h : PlayedFrom s 0 u) (k : Nat) :
    ∃ v, runInstrs (List.replicate k tickProgram).flatten u = .next v ∧ PlayedFrom s k v := by
  induction k with
  | zero => exact ⟨u, rfl, h⟩
  | succ k ih =>
    obtain ⟨v, hv, hplayed⟩ := ih
    obtain ⟨w, hw, hplayed'⟩ := runInstrs_tickProgram_played hlen hcap hdrv hplayed
    refine ⟨w, ?_, hplayed'⟩
    rw [List.replicate_succ', List.flatten_append, runInstrs_append hv, List.flatten_singleton, hw]

end Sys2Proof.Machine

namespace Sys2Proof.Proofs

open Sys2Proof Sys2Proof.Machine

/-- Settles O36, by induction on the number of ticks after START. -/
theorem playbackWrapsAround : Obligations.PlaybackWrapsAround := by
  intro s k hinv hlife hdrv
  have hlen := (hinv.committed (.inr (.inr (.inl hlife)))).1
  have hcap := hinv.len_le_dataCap
  obtain ⟨u, hstart, hplayed⟩ := exec_start_played hlife (hlen.trans hcap) hdrv
  obtain ⟨t, hticks, h⟩ := runInstrs_ticks_played hlen hcap hdrv hplayed k
  exact ⟨t, (runInstrs_cons hstart).trans hticks, h.life, h.timeIndex, h.pwm0Duty, h.pwm1Duty, h.tickCount, h.lut,
    h.relay⟩

end Sys2Proof.Proofs
end

section
/-! PROOFS. R95, R98: the four bytes of the header. -/

namespace Sys2Proof.Machine

variable {s : State}

/-- Where a header byte leaves the block (R96). -/
theorem exec_ldb_header (b : Byte) (ig : BitVec 24) (hlife : s.life = .load) (hpos : s.pos.toNat < 4) :
    exec (.ldb b ig) s = .next (respond 0 (advancePos (headerByte b s))) := by
  have hgate : exec (.ldb b ig) s = completeWrite (acceptByte b s) := congrArg completeWrite (if_pos (beq_iff_eq.2 hlife))
  have haccept : acceptByte b s = .next (advancePos (headerByte b s)) := if_pos hpos
  rw [hgate, haccept, completeWrite_next]

/-- The bits of an assembled field: the new byte at its foot, the bits before it moved up by a byte (R96). -/
theorem shiftIn_getLsbD (w : Word) (b : Byte) {i : Nat} (hi : i < 32) :
    (shiftIn w b).getLsbD i = if i < 8 then b.getLsbD i else w.getLsbD (i - 8) := by
  rw [shiftIn_eq]
  by_cases h : i < 8
  · simp [h, hi]
  · simp [h, hi, BitVec.getLsbD_of_ge b i (by omega), BitVec.getLsbD_eq_getElem (by omega : i - 8 < 32)]

/-- R86: the four bytes of a field, shifted in one after the other, are the field again. -/
theorem shiftIn_wordBytes (w c : Word) :
    shiftIn (shiftIn (shiftIn (shiftIn w (c.extractLsb' 24 8)) (c.extractLsb' 16 8)) (c.extractLsb' 8 8))
      (c.extractLsb' 0 8) = c := by
  apply BitVec.eq_of_getLsbD_eq
  intro i hi
  rw [shiftIn_getLsbD _ _ hi, shiftIn_getLsbD _ _ (by omega), shiftIn_getLsbD _ _ (by omega),
    shiftIn_getLsbD _ _ (by omega)]
  simp only [BitVec.getLsbD_extractLsb']
  split_ifs with h0 h1 h2 h3
  · simp [h0]
  · simp [h1, show 8 + (i - 8) = i by omega]
  · simp [h2, show 16 + (i - 8 - 8) = i by omega]
  · simp [h3, show 24 + (i - 8 - 8 - 8) = i by omega]
  · omega

/-- LOAD after `n` header bytes, with `sr` shifted in (R54, R96). -/
structure HeaderLoaded (p : Params) (n : Nat) (sr : Word) (s : State) : Prop where
  cfg : s.cfg = p
  life : s.life = .load
  pos : s.pos.toNat = n
  countSr : s.countSr = sr

/-- One of the first three header bytes (R96). -/
theorem exec_ldb_headerLoaded {p : Params} {n : Nat} {sr : Word} (b : Byte) (ig : BitVec 24) (h : HeaderLoaded p n sr s)
    (hn : n < 3) : ∃ t, exec (.ldb b ig) s = .next t ∧ HeaderLoaded p (n + 1) (shiftIn sr b) t := by
  have hpos := h.pos
  refine ⟨_, exec_ldb_header b ig h.life (by omega), ?_⟩
  have hadvance := advancePos_toNat_of_lt (s := headerByte b s) (by rw [headerByte_pos]; omega)
  rw [headerByte_pos, hpos] at hadvance
  rw [headerByte_of_ne_three b (by omega)] at hadvance ⊢
  exact ⟨h.cfg, h.life, hadvance, congrArg (shiftIn · b) h.countSr⟩

/-- The fourth header byte (R98). -/
theorem exec_ldb_headerComplete {p : Params} {sr : Word} (b : Byte) (ig : BitVec 24) (h : HeaderLoaded p 3 sr s) :
    ∃ t, exec (.ldb b ig) s = .next t ∧ t.declCount = shiftIn sr b ∧ t.pos = 4 ∧
      t.len.toNat = min (shiftIn sr b).toNat p.dataCap ∧ t.trunc = decide (p.dataCap < (shiftIn sr b).toNat) ∧
      t.life = .load := by
  have hpos := h.pos
  refine ⟨_, exec_ldb_header b ig h.life (by omega), ?_⟩
  have hadvance := advancePos_toNat_of_lt (s := headerByte b s) (by rw [headerByte_pos]; omega)
  rw [headerByte_pos, hpos] at hadvance
  rw [headerByte_of_eq_three b hpos, h.countSr, h.cfg] at hadvance ⊢
  refine ⟨rfl, BitVec.eq_of_toNat_eq hadvance, ?_, rfl, h.life⟩
  exact Nat.mod_eq_of_lt (lt_of_le_of_lt (Nat.min_le_left _ _) (shiftIn sr b).isLt)

end Sys2Proof.Machine

namespace Sys2Proof.Proofs

open Sys2Proof Sys2Proof.Machine

/-- Settles O23: three bytes shifted in from reset, and the fourth that completes the count. -/
theorem headerTruncatesToCapacity : Obligations.HeaderTruncatesToCapacity := by
  intro p c _
  have h0 : HeaderLoaded p 0 0 (State.resetWith p) := ⟨rfl, rfl, rfl, rfl⟩
  obtain ⟨s1, hstep1, h1⟩ := exec_ldb_headerLoaded (c.extractLsb' 24 8) 0 h0 (by decide)
  obtain ⟨s2, hstep2, h2⟩ := exec_ldb_headerLoaded (c.extractLsb' 16 8) 0 h1 (by decide)
  obtain ⟨s3, hstep3, h3⟩ := exec_ldb_headerLoaded (c.extractLsb' 8 8) 0 h2 (by decide)
  obtain ⟨t, hstep4, ht⟩ := exec_ldb_headerComplete (c.extractLsb' 0 8) 0 h3
  rw [shiftIn_wordBytes] at ht
  have hrun : runInstrs (ldw c) (State.resetWith p) = .next t :=
    calc runInstrs (ldw c) (State.resetWith p)
      _ = runInstrs (ldbs [c.extractLsb' 16 8, c.extractLsb' 8 8, c.extractLsb' 0 8]) s1 := runInstrs_cons hstep1
      _ = runInstrs (ldbs [c.extractLsb' 8 8, c.extractLsb' 0 8]) s2 := runInstrs_cons hstep2
      _ = runInstrs (ldbs [c.extractLsb' 0 8]) s3 := runInstrs_cons hstep3
      _ = .next t := runInstrs_cons hstep4
  exact ⟨t, hrun, ht⟩

end Sys2Proof.Proofs
end

section
/-! PROOFS. The values of STATUS and PARAMS (R30, R49), the reads (R139) and the output ports (R61). -/

namespace Sys2Proof.Machine

/-- The fields of a register side by side: the upper one counts at the weight of its lowest bit. -/
theorem toNat_append_eq_add {m n : Nat} (x : BitVec m) (y : BitVec n) :
    (x ++ y).toNat = x.toNat * 2 ^ n + y.toNat := by
  rw [BitVec.toNat_append, ← Nat.shiftLeft_add_eq_or_of_lt y.isLt, Nat.shiftLeft_eq]

theorem State.busy_toNat (s : State) : s.busy.toNat = if s.life = .scaling then 1 else 0 := by
  unfold State.busy
  cases s.life <;> rfl

theorem State.txEmpty_toNat (s : State) : s.txEmpty.toNat = if s.txq = [] then 1 else 0 := by
  unfold State.txEmpty
  cases s.txq <;> rfl

theorem ShiftForm.bit_toNat (f : ShiftForm) : f.bit.toNat = if f = .reference then 1 else 0 := by cases f <;> rfl

/-- The fields of STATUS fill its low eleven bits (R30). -/
theorem State.statusWord_toNat (s : State) : s.statusWord.toNat =
    s.life.code.toNat + 8 * s.busy.toNat + 16 * s.trunc.toNat + 32 * s.relay.toNat + 64 * s.linePend.toNat +
      128 * s.lutValid.toNat + 256 * s.cmdErr.toNat + 512 * s.rxOverlong.toNat + 1024 * s.txEmpty.toNat := by
  unfold State.statusWord
  rw [BitVec.toNat_setWidth_of_le (by decide)]
  simp only [toNat_append_eq_add, BitVec.toNat_ofBool]
  omega

/-- PARAMS as a number (R49). -/
theorem paramsWord_toNat (p : Params) : (paramsWord p).toNat = p.lineMax % 65536 + 65536 * p.shiftForm.bit.toNat := by
  unfold paramsWord
  rw [BitVec.toNat_setWidth_of_le (by decide), toNat_append_eq_add, BitVec.toNat_ofBool, BitVec.toNat_ofNat]
  omega

end Sys2Proof.Machine

namespace Sys2Proof.Proofs

open Sys2Proof Sys2Proof.Machine

/-- Settles O10, from the fields of `statusWord` side by side. -/
theorem statusFields : Obligations.StatusFields := by
  intro s
  have hstatus := s.statusWord_toNat
  rw [s.busy_toNat, s.txEmpty_toNat] at hstatus
  refine hstatus.trans ?_
  cases s.life <;> rfl

/-- Settles O11: a valid LINE_MAX fits its 16 bits. -/
theorem paramsFields : Obligations.ParamsFields := by
  intro s hvalid
  obtain ⟨-, ⟨-, hlineMax⟩, -⟩ := hvalid
  rw [← ShiftForm.bit_toNat, ← Nat.mod_eq_of_lt (Nat.lt_succ_of_le hlineMax)]
  exact paramsWord_toNat s.cfg

/-- Settles O1: words and offsets written out, so the decoder is run on each. -/
theorem specWordsDecode : Obligations.SpecWordsDecode := by
  unfold Obligations.SpecWordsDecode
  decide

/-- Settles O9: an operation RD answers `readValue`, and that is defined register by register. -/
theorem registerReads : Obligations.RegisterReads := by
  intro s r _
  have hirqEn : s.readValue .irqEn = if s.fatalIe then 1 else 0 := by
    unfold State.readValue
    cases s.fatalIe <;> rfl
  exact ⟨rfl, rfl, rfl, rfl, rfl, rfl, rfl, rfl, rfl, rfl, rfl, rfl, rfl, rfl, rfl, rfl, hirqEn, rfl, rfl⟩

/-- Settles O56: each port by its definition; the write of IRQ_EN leaves FATAL and stores `v[0]`. -/
theorem outputPorts : Obligations.OutputPorts := by
  intro s v
  refine ⟨rfl, ?pwm0, ?pwm1, ?rxReady, ?txValid, ?busReady, ?irq, fun hlife => ⟨_, rfl, hlife, ?irqEn⟩⟩
  case pwm0 => exact decide_eq_true_iff
  case pwm1 => exact decide_eq_true_iff
  case rxReady => simp [State.rxReadyOut, State.rxReady]
  case txValid => simp [State.txValidOut, State.txValid]
  case busReady => simp +contextual [State.busReadyOut]
  case irq => simp [State.irq]
  case irqEn => simp [State.irq, hlife]

end Sys2Proof.Proofs
end

section
/-! PROOFS. R71, R135: what the step runs, by what the turn brings, and what a turn of the host brings. -/

namespace Sys2Proof.Machine

variable {s : State}

theorem step_of_fetch_run {i : Instr} (h : fetch s.nextTurn.agent s.nextTurn.inputs = .run i) :
    step s = exec i s.takeTurn := by
  unfold step
  rw [h]

theorem step_of_fetch_idle (h : fetch s.nextTurn.agent s.nextTurn.inputs = .idle) : step s = .next s.takeTurn := by
  unfold step
  rw [h]

theorem fetch_host_of_busValid {p : Inputs} (hrst : p.rst = false) (hvalid : p.busValid = true) :
    fetch .host p = .run (decode (busWireOf p)) := by
  simp [fetch, hrst, hvalid]

theorem fetch_host_of_not_busValid {p : Inputs} (hrst : p.rst = false) (hvalid : p.busValid = false) :
    fetch .host p = .idle := by
  simp [fetch, hrst, hvalid]

end Sys2Proof.Machine

namespace Sys2Proof.Proofs

open Sys2Proof Sys2Proof.Machine

/-- Settles O6: the host's turn brings the word on the bus or nothing, and the step runs what the turn brings. -/
theorem stepRunsTheOfferedAccess : Obligations.StepRunsTheOfferedAccess := by
  intro s hhost hrst
  have hoffered (hvalid : s.nextTurn.inputs.busValid = true) :
      step s = exec (decode (busWireOf s.nextTurn.inputs)) s.takeTurn :=
    step_of_fetch_run (by rw [hhost, fetch_host_of_busValid hrst hvalid])
  refine ⟨fun hvalid hwrite => ?write, fun hvalid hread => ?read, fun hvalid => ?idle⟩
  case write => rw [hoffered hvalid, busWireOf, if_pos hwrite]
  case read => rw [hoffered hvalid, busWireOf, if_neg (by simp [hread])]
  case idle => exact step_of_fetch_idle (by rw [hhost, fetch_host_of_not_busValid hrst hvalid])

end Sys2Proof.Proofs
end

section
/-! PROOFS. R78: under the invariant each operation with a fault of the model's own (log 5) answers a next state. -/

namespace Sys2Proof.Machine

/-- The result is a next state, neither a fault nor a refusal. -/
def Answers (r : Result) : Prop := ∃ t, r = .next t

theorem answers_next (t : State) : Answers (.next t) := ⟨t, rfl⟩

theorem Answers.completeWrite {r : Result} (h : Answers r) : Answers (completeWrite r) := by
  obtain ⟨t, rfl⟩ := h
  exact answers_next _

variable {s : State}

theorem gatedWrite_answers {legal : Bool} {effect : State → Result} (heffect : legal = true → Answers (effect s)) :
    Answers (completeWrite (gated legal effect s)) := by
  rw [gated_eq]
  split
  · exact (heffect ‹_›).completeWrite
  · exact answers_next _

/-- A LUT entry that the window shows is below LEN, so below the capacity (R141). -/
theorem execRdLut_answers (h : Inv s) : Answers (execRdLut s) := by
  have hcap := h.len_le_dataCap
  obtain ⟨v, hv⟩ : ∃ v, s.lutWindow = some v := by
    rw [lutWindow_eq]
    split
    · exact ⟨_, if_pos (by omega)⟩
    · exact ⟨0, rfl⟩
  rw [execRdLut, hv]
  exact answers_next _

/-- A sample that the window shows is below LEN, so below the capacity (R142). -/
theorem execRdSample_answers (h : Inv s) : Answers (execRdSample s) := by
  have hcap := h.len_le_dataCap
  obtain ⟨v, hv⟩ : ∃ v, s.sampleWindow = some v := by
    rw [sampleWindow_eq]
    split
    · exact ⟨_, if_pos (by omega)⟩
    · exact ⟨0, rfl⟩
  rw [execRdSample, hv]
  exact answers_next _

/-- A kept sample has an index below LEN, so below the capacity (R36, R96). -/
theorem acceptByte_answers (b : Byte) (h : Inv s) : Answers (acceptByte b s) := by
  unfold acceptByte
  split
  · exact answers_next _
  · rcases payloadByte_cases (b := b) (s := s) rfl with
      ⟨-, -, -, heq⟩ | ⟨hk, -, hbeyond, -⟩ | ⟨-, -, heq⟩ | ⟨-, -, heq⟩ | ⟨-, -, heq⟩
    case inr.inl => exact absurd (hk.trans_le h.len_le_dataCap) hbeyond.not_gt
    all_goals exact ⟨_, heq⟩

/-- R6: the capacity is at least 1, so entry 0 is there. -/
theorem startPlayback_answers (h : Inv s) : Answers (startPlayback s) := by
  obtain ⟨⟨⟨hcap, -⟩, -⟩, -⟩ := h
  rcases startPlayback_cases s with ⟨-, heq⟩ | ⟨hzero, -⟩
  · exact ⟨_, heq⟩
  · omega

/-- A series in use has LEN at least 1 and at most the capacity (R36, R105). -/
theorem execScalerStep_answers (h : Inv s) : Answers (execScalerStep s) := by
  rcases execScalerStep_cases s with
    ⟨-, heq⟩ | ⟨-, -, heq⟩ | ⟨-, hbeyond, -⟩ | ⟨hlife, hempty, -⟩ | ⟨_, _, -, -, -, -, -, heq⟩
  case inr.inr.inl => exact absurd h.len_le_dataCap hbeyond.not_ge
  case inr.inr.inr.inl =>
    have hlen := (h.committed (.inr (.inl hlife))).1
    simp [hempty] at hlen
  all_goals exact ⟨_, heq⟩

/-- The next index, a remainder modulo LEN, is below the capacity (R119). -/
theorem nextIndex_lt_dataCap (h : Inv s) (hlife : s.life = .running) : s.nextIndex < s.cfg.dataCap :=
  (Nat.mod_lt _ (h.committed (.inr (.inr (.inr hlife)))).1).trans_le h.len_le_dataCap

/-- In RUNNING, LEN is at least 1 and the next index is an entry of the LUT (R119). -/
theorem execTickStep_answers (h : Inv s) : Answers (execTickStep s) := by
  rcases execTickStep_cases s with ⟨-, heq⟩ | ⟨-, -, -, -, heq⟩ | ⟨hlife, -, hempty | hbeyond, -⟩
  · exact ⟨_, heq⟩
  · exact ⟨_, heq⟩
  · have hlen := (h.committed (.inr (.inr (.inr hlife)))).1
    simp [hempty] at hlen
  · exact absurd (nextIndex_lt_dataCap h hlife) hbeyond.not_gt

/-- The waiting line fits its buffer (R55). -/
theorem execDispatch_answers (h : Inv s) : Answers (execDispatch s) := by
  obtain ⟨-, -, -, -, -, -, -, hline, -⟩ := h
  rcases execDispatch_cases s with ⟨-, heq⟩ | ⟨-, -, hbeyond, -⟩ | ⟨-, -, -, _, _, -, heq⟩
  · exact ⟨_, heq⟩
  · exact absurd hline hbeyond.not_ge
  · exact ⟨_, heq⟩

theorem exec_answers (i : Instr) (h : Inv s) : Answers (exec i s) := by
  cases i with
  | busMisalignedW | busMisalignedR | busPartial | busUnmappedW | busUnmappedR | nop | wrRo | cmdIllegal | wrStatus
  | wrTblAddr | wrIrqEn | rd | rdWo | tickDue | pwmReload | rxAccept | lineOn | lineOff | lineOther | txDepart
  | reset => exact answers_next _
  | wrMaxBright | wrDynRange | loadCommit | scale => exact gatedWrite_answers fun _ => answers_next _
  | rdLut => exact execRdLut_answers h
  | rdSample => exact execRdSample_answers h
  | ldb b => exact gatedWrite_answers fun _ => acceptByte_answers b h
  | start => exact gatedWrite_answers fun _ => startPlayback_answers h
  | scalerStep => exact execScalerStep_answers h
  | tickStep => exact execTickStep_answers h
  | dispatch => exact execDispatch_answers h

theorem step_answers (h : Inv s) : Answers (step s) := by
  rcases step_cases (s := s) rfl with ⟨i, -, heq⟩ | ⟨-, heq⟩ | ⟨-, heq⟩ <;> rw [heq]
  · exact exec_answers i (inv_takeTurn h)
  · exact answers_next _
  · exact answers_next _

end Sys2Proof.Machine

namespace Sys2Proof.Proofs

open Sys2Proof Sys2Proof.Machine

/-- Settles O59: every operation answers under the invariant, and taking the turn keeps it. -/
theorem noStepFaultsUnderInv : Obligations.NoStepFaultsUnderInv := fun _ h => step_answers h

end Sys2Proof.Proofs
end

section
/-! PROOFS. R75: the tick step writes the playback registers and nothing else; the dispatch step neither reads nor writes
them. -/

namespace Sys2Proof.Machine

/-- The registers that the tick step writes (R119). -/
structure Playback where
  tickPend : Bool
  timeIndex : Word
  pwm0Duty : Duty
  pwm1Duty : Duty
  tickCount : Word

/-- The playback registers as they stand. -/
def State.playback (s : State) : Playback := ⟨s.tickPend, s.timeIndex, s.pwm0Duty, s.pwm1Duty, s.tickCount⟩

/-- `s` with other values in the playback registers, and nothing else changed. -/
def State.withPlayback (s : State) (p : Playback) : State :=
  { s with tickPend := p.tickPend, timeIndex := p.timeIndex, pwm0Duty := p.pwm0Duty, pwm1Duty := p.pwm1Duty,
           tickCount := p.tickCount }

/-- What the tick step leaves in the playback registers (R119), as `execTickStep_of_inv` says. -/
def State.nextPlayback (s : State) : Playback :=
  if s.life = .running ∧ s.tickPend = true then
    ⟨false, BitVec.ofNat 32 s.nextIndex, s.lut.read s.nextIndex, s.lut.read s.nextIndex, s.tickCount + 1⟩
  else s.playback

variable {s : State}

/-! ### The tick step -/

theorem execTickStep_of_inv (h : Inv s) (hdrv : s.inp.drvFault = false) :
    execTickStep s = .next (s.withPlayback s.nextPlayback) := by
  obtain ⟨t, ht⟩ := execTickStep_answers h
  rcases execTickStep_cases s with ⟨hidle, heq⟩ | ⟨hlife, hpend, -, -, heq⟩ | ⟨-, -, -, f, heq⟩
  · rw [heq, State.nextPlayback, if_neg hidle]
    rfl
  · rw [State.nextPlayback, if_pos ⟨hlife, hpend⟩]
    exact heq.trans (congrArg Host.Outcome.next (checkDriver_of_not_drvFault hdrv))
  · rw [heq] at ht
    cases ht

/-! ### The dispatch step does not read the playback registers -/

theorem checkDriver_withPlayback (info : Word) (s : State) (p : Playback) :
    checkDriver info (s.withPlayback p) = (checkDriver info s).withPlayback p := by
  rcases checkDriver_cases info s with ⟨hdrv, heq⟩ | ⟨hdrv, heq⟩ <;> rw [heq]
  · exact checkDriver_of_not_drvFault hdrv
  · exact if_pos hdrv

theorem applyCommand_withPlayback (c : Command) (s : State) (p : Playback) :
    applyCommand c (s.withPlayback p) = (applyCommand c s).withPlayback p := by
  cases c with
  | turnOn => exact checkDriver_withPlayback 1 { s with relay := true } p
  | turnOff => exact checkDriver_withPlayback 1 { s with relay := false } p
  | unrecognized => rfl

theorem dispatchAs_withPlayback (c : Command) (t : List Byte) (ovf : Bool) (s : State) (p : Playback) :
    dispatchAs c t ovf (s.withPlayback p) = (dispatchAs c t ovf s).withPlayback p := by
  have hcan : (s.withPlayback p).canDispatch t = s.canDispatch t := rfl
  unfold dispatchAs
  rw [hcan]
  split
  · exact applyCommand_withPlayback c (finishLine c t ovf s) p
  · rfl

theorem execDispatch_of_line {kept : List Byte} (hguard : s.life = .running ∧ s.linePend = true)
    (hline : s.line = some kept) : execDispatch s =
      .next (dispatchAs (decodeCommand kept s.lineOvf).1 (decodeCommand kept s.lineOvf).2 s.lineOvf s) := by
  rw [execDispatch, if_pos hguard, hline]

theorem execDispatch_withPlayback {u : State} (p : Playback) (h : execDispatch s = .next u) :
    execDispatch (s.withPlayback p) = .next (u.withPlayback p) := by
  by_cases hguard : s.life = .running ∧ s.linePend = true
  · cases hline : s.line with
    | none => simp [execDispatch, hguard, hline] at h
    | some kept =>
      rw [execDispatch_of_line hguard hline] at h
      rw [execDispatch_of_line (s := s.withPlayback p) hguard hline, dispatchAs_withPlayback]
      rw [← Host.Outcome.next.inj h]
      rfl
  · obtain rfl : s = u := Host.Outcome.next.inj ((if_neg hguard).symm.trans h)
    exact if_neg hguard

/-! ### The dispatch step does not write what the tick step reads -/

/-- In `u` the tick step finds the inputs, and leaves the playback registers, as in `s`. A driver fault in the dispatch step
breaks this: it ends in FATAL, where no tick is taken. -/
def KeepsTick (s u : State) : Prop := u.inp = s.inp ∧ u.nextPlayback = s.nextPlayback

theorem dispatchAs_keepsTick (c : Command) (t : List Byte) (ovf : Bool) (hdrv : s.inp.drvFault = false) :
    KeepsTick s (dispatchAs c t ovf s) := by
  rcases dispatchAs_cases c t ovf s with ⟨-, heq⟩ | ⟨-, -, -, heq⟩ <;> rw [heq]
  · exact ⟨rfl, rfl⟩
  · obtain ⟨r, heq | ⟨hfault, -, -⟩⟩ := applyCommand_cases c (finishLine c t ovf s)
    · rw [heq]
      exact ⟨rfl, rfl⟩
    · exact absurd (hdrv.symm.trans hfault) Bool.false_ne_true

theorem execDispatch_keepsTick (hdrv : s.inp.drvFault = false) : NextMeets (KeepsTick s) (execDispatch s) := by
  rcases execDispatch_cases s with ⟨-, heq⟩ | ⟨-, -, -, heq⟩ | ⟨-, -, -, c, t, -, heq⟩ <;> rw [heq]
  · exact nextMeets_next.2 ⟨rfl, rfl⟩
  · exact nextMeets_fault _
  · exact nextMeets_next.2 (dispatchAs_keepsTick c t s.lineOvf hdrv)

end Sys2Proof.Machine

namespace Sys2Proof.Proofs

open Sys2Proof Sys2Proof.Machine

/-- Settles O50: both orders end in the state after the dispatch step with the tick's values in the playback registers. -/
theorem tickAndDispatchCommute : Obligations.TickAndDispatchCommute := by
  intro s h hdrv
  obtain ⟨u, hdispatch⟩ := execDispatch_answers h
  obtain ⟨hinp, hplayback⟩ := execDispatch_keepsTick hdrv u hdispatch
  have hu : Inv u := execDispatch_meets_inv h u hdispatch
  have htick : exec .tickStep s = .next (s.withPlayback s.nextPlayback) := execTickStep_of_inv h hdrv
  have hdispatch' : exec .dispatch s = .next u := hdispatch
  have hdispatchTicked : exec .dispatch (s.withPlayback s.nextPlayback) = .next (u.withPlayback s.nextPlayback) :=
    execDispatch_withPlayback _ hdispatch
  have htickDispatched : exec .tickStep u = .next (u.withPlayback s.nextPlayback) :=
    hplayback ▸ execTickStep_of_inv hu (hinp ▸ hdrv)
  exact ⟨u.withPlayback s.nextPlayback, (runInstrs_cons htick).trans (runInstrs_cons hdispatchTicked),
    (runInstrs_cons hdispatch').trans (runInstrs_cons htickDispatched)⟩

end Sys2Proof.Proofs
end

section
/-! PROOFS. R91: the decode map read forwards, one equation per line, and backwards, the word each line comes from. -/

namespace Sys2Proof.Laws

/-! ### The fields of a word -/

/-- LDB's byte and the bits it ignores (R83), as shifts of the written word. -/
theorem loadData_extract_eq_shift (v : Word) :
    v.extractLsb' 0 8 = v.setWidth 8 ∧ v.extractLsb' 8 24 = (v >>> 8).setWidth 24 := by
  constructor <;> apply BitVec.eq_of_toNat_eq <;> simp

theorem lowBits_ne_zero_iff (a : BitVec 8) : a.extractLsb' 0 2 ≠ 0#2 ↔ a.toNat % 4 ≠ 0 :=
  not_congr (lowBits_eq_zero_iff a)

/-- Every aligned offset below 0x60 is a register's (R26). -/
theorem exists_offset_eq {a : BitVec 8} (halign : a.toNat % 4 = 0) (hlt : a.toNat < 0x60) : ∃ r : Reg, r.offset = a := by
  obtain ⟨r, hr⟩ := Option.ne_none_iff_exists'.1 (mt (ofOffset_eq_none_iff a).1 (not_not_intro ⟨halign, hlt⟩))
  exact ⟨r, (ofOffset_eq_some_iff a r).1 hr⟩

/-! ### Write words -/

theorem decodeW_of_misaligned {addr : BitVec 8} (wstrb : BitVec 4) (wdata : Word) (h : addr.toNat % 4 ≠ 0) :
    decodeW wstrb addr wdata = .busMisalignedW wstrb addr wdata :=
  if_pos ((lowBits_ne_zero_iff addr).2 h)

theorem decodeW_of_partial {wstrb : BitVec 4} {addr : BitVec 8} (wdata : Word) (halign : addr.toNat % 4 = 0)
    (hstrb : wstrb ≠ 0xF#4) : decodeW wstrb addr wdata = .busPartial wstrb addr wdata := by
  rw [decodeW, if_neg (not_not_intro ((lowBits_eq_zero_iff addr).2 halign)), if_pos hstrb]

theorem decodeW_of_unmapped {addr : BitVec 8} (wdata : Word) (halign : addr.toNat % 4 = 0) (hge : 0x60 ≤ addr.toNat) :
    decodeW 0xF#4 addr wdata = .busUnmappedW addr wdata := by
  have hnone : Reg.ofOffset addr = none := (ofOffset_eq_none_iff addr).2 (by omega)
  simp [decodeW, (lowBits_eq_zero_iff addr).2 halign, hnone]

theorem decodeW_offset (r : Reg) (wdata : Word) : decodeW 0xF#4 r.offset wdata = decodeRegWrite r wdata := by
  simp [decodeW, offset_aligned]

/-- A CMD word above 3 is none of the four commands (R82). -/
theorem decodeCmd_of_gt {wdata : Word} (h : 3 < wdata.toNat) : decodeCmd wdata = .cmdIllegal wdata := by
  have hne (n : Word) (hn : n.toNat ≤ 3) : wdata ≠ n := fun heq => by rw [heq] at h; omega
  rw [decodeCmd, if_neg (hne 0 (by decide)), if_neg (hne 1 (by decide)), if_neg (hne 2 (by decide)),
    if_neg (hne 3 (by decide))]

/-- LDB's operands as shifts of the written word (R83). -/
theorem decodeRegWrite_loadData (wdata : Word) :
    decodeRegWrite .loadData wdata = .ldb (wdata.setWidth 8) ((wdata >>> 8).setWidth 24) := by
  obtain ⟨hb, hignored⟩ := loadData_extract_eq_shift wdata
  exact congrArg₂ Instr.ldb hb hignored

theorem decodeRegWrite_of_readOnly {r : Reg} (wdata : Word) (h : r.readOnly = true) :
    decodeRegWrite r wdata = .wrRo r wdata := by
  cases r <;> cases h <;> rfl

/-- R143: the registers that take a write are at these seven offsets. -/
theorem readOnly_iff (r : Reg) :
    r.readOnly = true ↔ r.offset ∉ [0x04#8, 0x08#8, 0x14#8, 0x24#8, 0x28#8, 0x3C#8, 0x50#8] := by
  cases r <;> decide

/-! ### Read words -/

theorem decodeR_of_misaligned {addr : BitVec 8} (h : addr.toNat % 4 ≠ 0) : decodeR addr = .busMisalignedR addr :=
  if_pos ((lowBits_ne_zero_iff addr).2 h)

theorem decodeR_of_unmapped {addr : BitVec 8} (halign : addr.toNat % 4 = 0) (hge : 0x60 ≤ addr.toNat) :
    decodeR addr = .busUnmappedR addr := by
  have hnone : Reg.ofOffset addr = none := (ofOffset_eq_none_iff addr).2 (by omega)
  simp [decodeR, (lowBits_eq_zero_iff addr).2 halign, hnone]

theorem decodeR_offset (r : Reg) : decodeR r.offset = decodeRegRead r := by
  simp [decodeR, offset_aligned]

theorem decodeRegRead_of_writeOnly {r : Reg} (h : r.writeOnly = true) : decodeRegRead r = .rdWo r := by
  cases r <;> cases h <;> rfl

theorem decodeRegRead_of_plainRead {r : Reg} (h : r.plainRead = true) : decodeRegRead r = .rd r := by
  cases r <;> cases h <;> rfl

/-- R139: all registers are read by RD but the two write-only ones and, by log 14, the two windows. -/
theorem plainRead_iff (r : Reg) : r.plainRead = true ↔ r.offset ∉ [0x04#8, 0x14#8, 0x40#8, 0x44#8] := by
  cases r <;> decide

/-! ### Control lines -/

/-- The three cases of a complete line (R89). -/
theorem decodeCommand_cases (kept : List Byte) (ovf : Bool) :
    (ovf = false ∧ strip kept = onBytes ∧ decodeCommand kept ovf = (.turnOn, onBytes)) ∨
    (ovf = false ∧ strip kept = offBytes ∧ decodeCommand kept ovf = (.turnOff, offBytes)) ∨
    ((ovf = true ∨ strip kept ≠ onBytes ∧ strip kept ≠ offBytes) ∧
      decodeCommand kept ovf = (.unrecognized, strip kept)) := by
  unfold decodeCommand
  cases ovf with
  | true => exact .inr (.inr ⟨.inl rfl, rfl⟩)
  | false =>
    by_cases hon : strip kept = onBytes
    · exact .inl ⟨rfl, hon, by simp [hon]⟩
    · by_cases hoff : strip kept = offBytes
      · exact .inr (.inl ⟨rfl, hoff, by simp [hoff, show offBytes ≠ onBytes by decide]⟩)
      · exact .inr (.inr ⟨.inr ⟨hon, hoff⟩, by simp [hon, hoff]⟩)

/-- The row of a line is that of its command (R127 to R129). -/
theorem decodeLine_cases (kept : List Byte) (ovf : Bool) :
    (ovf = false ∧ strip kept = onBytes ∧ decodeLine kept ovf = .lineOn) ∨
    (ovf = false ∧ strip kept = offBytes ∧ decodeLine kept ovf = .lineOff) ∨
    ((ovf = true ∨ strip kept ≠ onBytes ∧ strip kept ≠ offBytes) ∧
      decodeLine kept ovf = .lineOther (strip kept) ovf) := by
  unfold decodeLine
  rcases decodeCommand_cases kept ovf with ⟨hovf, ht, heq⟩ | ⟨hovf, ht, heq⟩ | ⟨hother, heq⟩ <;> rw [heq]
  · exact .inl ⟨hovf, ht, rfl⟩
  · exact .inr (.inl ⟨hovf, ht, rfl⟩)
  · exact .inr (.inr ⟨hother, rfl⟩)

/-- A text that is trimmed already, and no command unless it is overlong, is its own LINE_OTHER line. -/
theorem decodeLine_of_trimmed {t : List Byte} {ovf : Bool} (htrim : trimmed t = true)
    (hother : ovf = true ∨ t ≠ onBytes ∧ t ≠ offBytes) : decodeLine t ovf = .lineOther t ovf := by
  rcases decodeLine_cases t ovf with ⟨rfl, ht, -⟩ | ⟨rfl, ht, -⟩ | ⟨-, heq⟩
  · rw [strip_of_trimmed htrim] at ht
    simp [ht] at hother
  · rw [strip_of_trimmed htrim] at ht
    simp [ht] at hother
  · rwa [strip_of_trimmed htrim] at heq

theorem strip_isInfix (s : List Byte) : strip s <:+: s := by
  obtain ⟨a, b, hs, -⟩ := Proofs.stripRemovesExactlyTheEnds s
  exact ⟨a, b, hs.symm⟩

theorem trimmed_strip (s : List Byte) : trimmed (strip s) = true := by
  simp only [trimmed, Bool.and_eq_true, Option.all_eq_true, Bool.not_eq_true']
  exact ⟨fun b hb => Proofs.head?_strip hb, fun b hb => Proofs.getLast?_strip hb⟩

/-! ### Encoding what was decoded -/

theorem encode_decodeCmd (wdata : Word) : encode (decodeCmd wdata) = some (fullWrite .cmd wdata) := by
  unfold decodeCmd
  split_ifs <;> simp_all [encode]

theorem wf_decodeCmd (wdata : Word) : (decodeCmd wdata).wf = true := by
  unfold decodeCmd
  split_ifs with h0 h1 h2 h3
  case neg => simp [Instr.wf]; bv_omega
  all_goals rfl

theorem encode_decodeRegWrite (r : Reg) (wdata : Word) : encode (decodeRegWrite r wdata) = some (fullWrite r wdata) := by
  cases r
  case cmd => exact encode_decodeCmd wdata
  case loadData => exact congrArg (fun v => some (fullWrite .loadData v)) (loadData_fields wdata)
  all_goals rfl

theorem wf_decodeRegWrite (r : Reg) (wdata : Word) : (decodeRegWrite r wdata).wf = true := by
  cases r
  case cmd => exact wf_decodeCmd wdata
  all_goals rfl

theorem encode_decodeW (wstrb : BitVec 4) (addr : BitVec 8) (wdata : Word) :
    encode (decodeW wstrb addr wdata) = some (.busw (buswWord wstrb addr wdata)) := by
  rcases decodeW_cases wstrb addr wdata with
    ⟨-, heq⟩ | ⟨-, -, heq⟩ | ⟨-, rfl, -, heq⟩ | ⟨r, rfl, rfl, heq⟩ <;> rw [heq]
  case inr.inr.inr => exact encode_decodeRegWrite r wdata
  all_goals rfl

theorem wf_decodeW (wstrb : BitVec 4) (addr : BitVec 8) (wdata : Word) : (decodeW wstrb addr wdata).wf = true := by
  rcases decodeW_cases wstrb addr wdata with
    ⟨h, heq⟩ | ⟨halign, hstrb, heq⟩ | ⟨halign, -, hge, heq⟩ | ⟨r, rfl, rfl, heq⟩ <;> rw [heq]
  · exact bne_iff_ne.2 ((lowBits_ne_zero_iff addr).2 h)
  · simpa [Instr.wf, (lowBits_eq_zero_iff addr).2 halign] using hstrb
  · simpa [Instr.wf, (lowBits_eq_zero_iff addr).2 halign] using hge
  · exact wf_decodeRegWrite r wdata

theorem encode_decodeR (addr : BitVec 8) : encode (decodeR addr) = some (.busr addr) := by
  rcases decodeR_cases addr with ⟨-, heq⟩ | ⟨-, -, heq⟩ | ⟨r, rfl, heq⟩ <;> rw [heq]
  case inr.inr => cases r <;> rfl
  all_goals rfl

theorem wf_decodeR (addr : BitVec 8) : (decodeR addr).wf = true := by
  rcases decodeR_cases addr with ⟨h, heq⟩ | ⟨halign, hge, heq⟩ | ⟨r, rfl, heq⟩ <;> rw [heq]
  · exact bne_iff_ne.2 ((lowBits_ne_zero_iff addr).2 h)
  · simpa [Instr.wf, (lowBits_eq_zero_iff addr).2 halign] using hge
  · cases r <;> rfl

theorem wf_decodeLine {kept : List Byte} (ovf : Bool) (hlf : lfByte ∉ kept) (hlen : kept.length ≤ 65535) :
    (decodeLine kept ovf).wf = true := by
  rcases decodeLine_cases kept ovf with ⟨-, -, heq⟩ | ⟨-, -, heq⟩ | ⟨hother, heq⟩ <;> rw [heq]
  · rfl
  · rfl
  · have hlf' : lfByte ∉ strip kept := fun h => hlf ((strip_isInfix kept).subset h)
    have hlen' := (strip_isInfix kept).length_le.trans hlen
    simpa [Instr.wf, trimmed_strip, hlf', hlen'] using hother

/-! ### Decoding what was encoded -/

/-- Well-formedness puts the operands where the operation's own line of the map is the first to match. -/
theorem decode_encode {i : Instr} {w : Wire} (hwf : i.wf = true) (h : encode i = some w) : decode w = i := by
  cases i <;> cases h
  case busMisalignedW wstrb addr wdata =>
    rw [decode_buswWord]
    exact decodeW_of_misaligned wstrb wdata ((lowBits_ne_zero_iff addr).1 (bne_iff_ne.1 hwf))
  case busMisalignedR addr => exact decodeR_of_misaligned ((lowBits_ne_zero_iff addr).1 (bne_iff_ne.1 hwf))
  case busPartial wstrb addr wdata =>
    simp only [Instr.wf, Bool.and_eq_true, beq_iff_eq, bne_iff_ne, lowBits_eq_zero_iff] at hwf
    rw [decode_buswWord]
    exact decodeW_of_partial wdata hwf.1 hwf.2
  case busUnmappedW addr wdata =>
    simp only [Instr.wf, Bool.and_eq_true, beq_iff_eq, decide_eq_true_eq, lowBits_eq_zero_iff] at hwf
    rw [decode_buswWord]
    exact decodeW_of_unmapped wdata hwf.1 hwf.2
  case busUnmappedR addr =>
    simp only [Instr.wf, Bool.and_eq_true, beq_iff_eq, decide_eq_true_eq, lowBits_eq_zero_iff] at hwf
    exact decodeR_of_unmapped hwf.1 hwf.2
  case cmdIllegal v =>
    rw [decode_fullWrite]
    exact decodeCmd_of_gt (of_decide_eq_true hwf)
  case ldb b ignored =>
    obtain ⟨hb, hignored⟩ := loadData_extract ignored b
    rw [decode_fullWrite]
    exact congrArg₂ Instr.ldb hb hignored
  case wrRo r v =>
    rw [decode_fullWrite]
    exact decodeRegWrite_of_readOnly v hwf
  case rdWo r => exact (decodeR_offset r).trans (decodeRegRead_of_writeOnly hwf)
  case rd r => exact (decodeR_offset r).trans (decodeRegRead_of_plainRead hwf)
  case rdLut => exact decodeR_offset .lutData
  case rdSample => exact decodeR_offset .sampleData
  case lineOther t ovf =>
    simp only [Instr.wf, Bool.and_eq_true, Bool.or_eq_true, bne_iff_ne] at hwf
    obtain ⟨⟨⟨htrim, -⟩, -⟩, hother⟩ := hwf
    exact decodeLine_of_trimmed htrim hother
  case lineOn | lineOff => decide
  all_goals exact decode_fullWrite _ _

end Sys2Proof.Laws

namespace Sys2Proof.Proofs

open Sys2Proof Sys2Proof.Laws

/-- Settles O3, operation by operation. -/
theorem decodeInvertsEncode : Obligations.DecodeInvertsEncode := fun _ _ => decode_encode

/-- Settles O2: each line of the map by its own equation, an address of the map as the offset of its register. -/
theorem busDecodeMap : Obligations.BusDecodeMap := by
  refine ⟨fun wstrb addr wdata => ?write, fun addr => ?read⟩
  case write =>
    simp only [decode_buswWord]
    have hreg (r : Reg) (hstrb : wstrb = 0xF) (haddr : addr = r.offset) :
        decodeW wstrb addr wdata = decodeRegWrite r wdata := by rw [hstrb, haddr]; exact decodeW_offset r wdata
    refine ⟨fun h => decodeW_of_misaligned wstrb wdata h, fun halign h => decodeW_of_partial wdata halign h,
      fun halign hstrb hge => ?unmapped, fun hstrb haddr => ?cmd, hreg .status, fun hstrb haddr => ?loadData,
      hreg .maxBright, hreg .dynRange, hreg .tblAddr, hreg .irqEn, fun hstrb halign hlt hro => ?readOnly⟩
    case unmapped => rw [hstrb]; exact decodeW_of_unmapped wdata halign hge
    case cmd =>
      rw [hreg .cmd hstrb haddr]
      refine ⟨?_, ?_, ?_, ?_, decodeCmd_of_gt⟩ <;> rintro rfl <;> rfl
    case loadData => exact (hreg .loadData hstrb haddr).trans (decodeRegWrite_loadData wdata)
    case readOnly =>
      obtain ⟨r, rfl⟩ := exists_offset_eq halign hlt
      exact ⟨r, rfl, (hreg r hstrb rfl).trans (decodeRegWrite_of_readOnly wdata ((readOnly_iff r).2 hro))⟩
  case read =>
    have hreg (r : Reg) (haddr : addr = r.offset) : decode (.busr addr) = decodeRegRead r := haddr ▸ decodeR_offset r
    refine ⟨decodeR_of_misaligned, decodeR_of_unmapped, hreg .cmd, hreg .loadData, hreg .lutData, hreg .sampleData,
      fun halign hlt hplain => ?plain⟩
    obtain ⟨r, rfl⟩ := exists_offset_eq halign hlt
    exact ⟨r, rfl, (hreg r rfl).trans (decodeRegRead_of_plainRead ((plainRead_iff r).2 hplain))⟩

/-- Settles O4: a bus word is the word of its fields, and the fields are all kept; a line loses only bytes at its ends. -/
theorem encodeInvertsDecodeOnTheBus : Obligations.EncodeInvertsDecodeOnTheBus := by
  refine ⟨fun w => ⟨?_, wf_decodeW _ _ _⟩, fun a => ⟨encode_decodeR a, wf_decodeR a⟩,
    fun _ ovf hlf hlen => wf_decodeLine ovf hlf hlen⟩
  rw [decode, encode_decodeW, buswWord_fields]

end Sys2Proof.Proofs
end

section
/-! PROOFS. R84, R106: the BIN32 patterns in the order of their values. -/

namespace Sys2Proof.Machine

/-- The magnitude of a BIN32 pattern with exponent field `e` and fraction field `f`, in units of 2^-1074 (R84). -/
def bin32Magnitude (e f : Nat) : Nat := if e = 0 then f * 2 ^ 925 else (2 ^ 23 + f) * 2 ^ (e + 924)

/-- `F64.ofBin32` as sign and magnitude. -/
theorem F64.ofBin32_units (w : Word) : (F64.ofBin32 w).units =
    if w.getLsbD 31 then -(bin32Magnitude (w.extractLsb' 23 8).toNat (w.extractLsb' 0 23).toNat : Int)
    else bin32Magnitude (w.extractLsb' 23 8).toNat (w.extractLsb' 0 23).toNat := rfl

theorem bin32Magnitude_eq_zero_iff {e f : Nat} : bin32Magnitude e f = 0 ↔ e = 0 ∧ f = 0 := by
  unfold bin32Magnitude
  split
  · rw [Nat.mul_eq_zero, or_iff_left (Nat.pow_pos (by decide)).ne', and_iff_right ‹_›]
  · rw [Nat.mul_eq_zero, or_iff_left (Nat.pow_pos (by decide)).ne']
    omega

/-- Normal values in the order of exponent and fraction: exponents below 127 stay below 1.0, 127 begins at 1.0, and those
above exceed it. -/
theorem normal_le_one_iff {e f : Nat} (n : Nat) (hf : f < 2 ^ 23) :
    (2 ^ 23 + f) * 2 ^ (e + n) ≤ 2 ^ 23 * 2 ^ (127 + n) ↔ e * 2 ^ 23 + f ≤ 127 * 2 ^ 23 := by
  rw [pow_add, pow_add, ← mul_assoc, ← mul_assoc, Nat.mul_le_mul_right_iff (Nat.pow_pos (by decide))]
  rcases Nat.lt_trichotomy e 127 with hlt | rfl | hgt
  · have hpow : 2 ^ e ≤ 2 ^ 126 := Nat.pow_le_pow_right (by decide) (by omega)
    have hle : (2 ^ 23 + f) * 2 ^ e ≤ 2 ^ 23 * 2 ^ 127 :=
      calc (2 ^ 23 + f) * 2 ^ e ≤ 2 ^ 24 * 2 ^ 126 := Nat.mul_le_mul (by omega) hpow
        _ = 2 ^ 23 * 2 ^ 127 := by decide
    exact iff_of_true hle (by omega)
  · rw [Nat.mul_le_mul_right_iff (Nat.pow_pos (by decide))]
    omega
  · have hpow : 2 ^ 128 ≤ 2 ^ e := Nat.pow_le_pow_right (by decide) (by omega)
    have hlt : 2 ^ 23 * 2 ^ 127 < (2 ^ 23 + f) * 2 ^ e :=
      calc 2 ^ 23 * 2 ^ 127 < 2 ^ 23 * 2 ^ 128 := by decide
        _ ≤ (2 ^ 23 + f) * 2 ^ e := Nat.mul_le_mul (by omega) hpow
    exact iff_of_false hlt.not_ge (by omega)

/-- 1.0 as the value of exponent field 127 and fraction field 0. -/
theorem F64.one_eq : F64.one = 2 ^ 23 * 2 ^ (127 + 924) := by
  rw [F64.one, show 1074 = 23 + (127 + 924) by decide, pow_add]

/-- Patterns without a sign are in the order of their values, here against 1.0. -/
theorem bin32Magnitude_le_one_iff {e f : Nat} (hf : f < 2 ^ 23) :
    bin32Magnitude e f ≤ F64.one ↔ e * 2 ^ 23 + f ≤ 127 * 2 ^ 23 := by
  rw [F64.one_eq, bin32Magnitude]
  split
  · exact iff_of_true (mul_le_mul' hf.le (pow_right_mono₀ one_le_two (by decide))) (by omega)
  · exact normal_le_one_iff 924 hf

/-- A BIN32 pattern by its three fields (R84). -/
theorem bin32_toNat (w : Word) :
    w.toNat = (w.getLsbD 31).toNat * 2 ^ 31 + (w.extractLsb' 23 8).toNat * 2 ^ 23 + (w.extractLsb' 0 23).toNat := by
  have hlt := w.isLt
  rw [BitVec.extractLsb'_toNat, BitVec.extractLsb'_toNat, BitVec.getLsbD, Nat.toNat_testBit, Nat.shiftRight_eq_div_pow,
    Nat.shiftRight_zero]
  omega

/-- R84: the exponent field of all ones holds no number. -/
theorem isFinite32_iff (w : Word) : isFinite32 w = true ↔ (w.extractLsb' 23 8).toNat ≠ 255 := by
  simp [isFinite32, ← BitVec.toNat_inj]

/-- R106: the patterns up to that of 1.0, and that of -0.0. -/
theorem cfgOk_iff (w : Word) : cfgOk w = true ↔ w.toNat ≤ 127 * 2 ^ 23 ∨ w.toNat = 2 ^ 31 := by
  simp [cfgOk, ← BitVec.toNat_inj]

end Sys2Proof.Machine

namespace Sys2Proof.Proofs

open Sys2Proof Sys2Proof.Machine

/-- Settles O26: without the sign the pattern's order is the value's order, and with it only -0.0 is not negative. -/
theorem configCheckIsTheUnitInterval : Obligations.ConfigCheckIsTheUnitInterval := by
  intro w
  have hfields := bin32_toNat w
  have hle := bin32Magnitude_le_one_iff (e := (w.extractLsb' 23 8).toNat) (w.extractLsb' 0 23).isLt
  have hzero := bin32Magnitude_eq_zero_iff (e := (w.extractLsb' 23 8).toNat) (f := (w.extractLsb' 0 23).toNat)
  have hone : (F64.ofNat 1).units = F64.one := one_mul _
  rw [cfgOk_iff, isFinite32_iff, hone, F64.ofBin32_units]
  cases hsign : w.getLsbD 31 with
  | false =>
    simp only [hsign, Bool.toNat_false, Bool.false_eq_true, if_false] at hfields ⊢
    omega
  | true =>
    simp only [hsign, Bool.toNat_true, if_true] at hfields ⊢
    omega

end Sys2Proof.Proofs
end

section
/-! PROOFS. R83, R96: one byte of the waveform. -/

namespace Sys2Proof.Machine

variable {s : State}

/-- `pos` advances and saturates, and nothing else changes (R54, R96). -/
theorem advancePos_eq (s : State) :
    advancePos s = { s with pos := BitVec.ofNat 36 (min (s.pos.toNat + 1) (2 ^ 36 - 1)) } := by
  have hpos : (advancePos s).pos = BitVec.ofNat 36 (min (s.pos.toNat + 1) (2 ^ 36 - 1)) :=
    BitVec.eq_of_toNat_eq (by rw [advancePos_toNat, BitVec.toNat_ofNat, Nat.mod_eq_of_lt (by omega)])
  rw [← hpos]
  rfl

/-- Outside LOAD a waveform byte only sets CMD_ERR (R149). -/
theorem exec_ldb_of_ne_load (b : Byte) (ig : BitVec 24) (hlife : s.life ≠ .load) :
    exec (.ldb b ig) s = .next (respond 0 (flagCmdErr s)) :=
  congrArg completeWrite (if_neg (by simpa using hlife))

/-- In LOAD a byte after the header is a payload byte (R96). -/
theorem exec_ldb_payload (b : Byte) (ig : BitVec 24) (hlife : s.life = .load) (hpos : 4 ≤ s.pos.toNat) :
    exec (.ldb b ig) s = completeWrite (payloadByte b s) := by
  have hgate : exec (.ldb b ig) s = completeWrite (acceptByte b s) := congrArg completeWrite (if_pos (beq_iff_eq.2 hlife))
  have haccept : acceptByte b s = payloadByte b s := if_neg (by omega)
  rw [hgate, haccept]

end Sys2Proof.Machine

namespace Sys2Proof.Proofs

open Sys2Proof Sys2Proof.Machine Sys2Proof.Laws

/-- Settles O21: a header byte by its place in the header, a payload byte by the cases of R96. -/
theorem loadByte : Obligations.LoadByte := by
  refine ⟨fun v => ?word, fun s b ig hlife => exec_ldb_of_ne_load b ig hlife, fun s b ig hlife hlen hwf => ?load⟩
  case word => exact (decode_fullWrite .loadData v).trans (decodeRegWrite_loadData v)
  case load =>
    intro p c k w
    by_cases hheader : s.pos.toNat < 4
    · refine ⟨_, exec_ldb_header b ig hlife hheader, ?_⟩
      rw [advancePos_eq, headerByte_pos]
      by_cases hthree : s.pos.toNat = 3
      · rw [headerByte_of_eq_three b hthree, shiftIn_eq]
        simp [respond, p, c, k, hthree]
      · rw [headerByte_of_ne_three b hthree, shiftIn_eq]
        simp [respond, p, c, k, hthree, hheader]
    · have hpos : 4 ≤ s.pos.toNat := by omega
      have hthree : s.pos.toNat ≠ 3 := by omega
      rw [exec_ldb_payload b ig hlife hpos]
      rcases payloadByte_cases (b := b) (s := s) rfl with
        ⟨hk, hj, -, heq⟩ | ⟨hk, -, hbeyond, -⟩ | ⟨hk, hj, heq⟩ | ⟨hk, hdecl, heq⟩ | ⟨hk, hdecl, heq⟩
      case inr.inl => omega
      all_goals
        rw [heq, completeWrite_next, advancePos_eq]
        refine ⟨_, rfl, ?_⟩
      · simp [respond, p, c, k, w, hthree, hheader, hpos, hk, hj, hk.not_ge, shiftIn_eq, Mem.read_write _ hwf]
      · simp [respond, p, c, k, w, hthree, hheader, hpos, hk, hj, hk.not_ge, shiftIn_eq]
      · simp [respond, p, c, k, w, hthree, hheader, hpos, hk, hdecl, hk.not_gt]
      · simp [respond, p, c, k, w, hthree, hheader, hpos, hk, hdecl.not_ge, hk.not_gt]

end Sys2Proof.Proofs
end

section
/-! PROOFS. R126 to R129: the dispatch step on a line with room for its echo, and the row the line decodes to. -/

namespace Sys2Proof.Machine

open Sys2Proof.Laws

variable {s : State}

/-- The driver check as a record: STATE, ERR_CODE and ERR_INFO change, and only under `drv_fault` (R154, R156). -/
theorem checkDriver_eq (info : Word) (s : State) :
    checkDriver info s = { s with
      life := if s.inp.drvFault then .fatal else s.life, errCode := if s.inp.drvFault then 8 else s.errCode,
      errInfo := if s.inp.drvFault then info else s.errInfo } := by
  rcases checkDriver_cases info s with ⟨hdrv, heq⟩ | ⟨hdrv, heq⟩ <;> rw [heq, hdrv] <;> rfl

/-- The guard of R126 for a line with text `t`. -/
theorem canDispatch_iff {t : List Byte} :
    s.canDispatch t = true ↔ s.life = .running ∧ s.linePend = true ∧ 16 + t.length ≤ s.txFree := by
  simp [State.canDispatch, and_assoc]

theorem dispatchAs_of_canDispatch {t : List Byte} (c : Command) (ovf : Bool) (h : s.canDispatch t = true) :
    dispatchAs c t ovf s = applyCommand c (finishLine c t ovf s) :=
  if_pos h

/-- A complete line that its buffer holds is decoded and its case taken (R126). -/
theorem exec_dispatch_of_decodeCommand {c : Command} {t : List Byte} (hlife : s.life = .running)
    (hpend : s.linePend = true) (hlen : s.lineLen.toNat ≤ s.cfg.lineMax)
    (hline : decodeCommand (lineBytes s.lineBuf s.lineLen.toNat) s.lineOvf = (c, t)) :
    exec .dispatch s = .next (dispatchAs c t s.lineOvf s) := by
  have hexec : exec .dispatch s = execDispatch s := rfl
  rw [hexec, execDispatch_of_line ⟨hlife, hpend⟩ (if_pos hlen), hline]

/-- The row of a line is the dispatch step for its command (log 11). -/
theorem exec_decodeLine {c : Command} {t kept : List Byte} {ovf : Bool} (hline : decodeCommand kept ovf = (c, t)) :
    exec (decodeLine kept ovf) s = .next (dispatchAs c t ovf s) := by
  unfold decodeLine
  rcases decodeCommand_cases kept ovf with ⟨rfl, -, heq⟩ | ⟨rfl, -, heq⟩ | ⟨-, heq⟩ <;>
    · rw [heq] at hline ⊢
      cases hline
      rfl

end Sys2Proof.Machine

namespace Sys2Proof.Proofs

open Sys2Proof Sys2Proof.Machine Sys2Proof.Laws

/-- Settles O44: both sides are the dispatch step for the command that the line decodes to. -/
theorem dispatchIsOneOfTheLineRows : Obligations.DispatchIsOneOfTheLineRows := by
  intro s hlife hpend hlen
  exact (exec_dispatch_of_decodeCommand hlife hpend hlen rfl).trans (exec_decodeLine rfl).symm

/-- Settles O43: the three cases of the decoded line. -/
theorem dispatchStep : Obligations.DispatchStep := by
  intro s hlife hpend hlen kept t on off bad hroom
  have hcan : s.canDispatch t = true := canDispatch_iff.2 ⟨hlife, hpend, hroom⟩
  have hexec {c : Command} (hline : decodeCommand kept s.lineOvf = (c, t)) :
      exec .dispatch s = .next (applyCommand c (finishLine c t s.lineOvf s)) := by
    rw [exec_dispatch_of_decodeCommand hlife hpend hlen hline, dispatchAs_of_canDispatch c s.lineOvf hcan]
  rcases decodeCommand_cases kept s.lineOvf with ⟨hovf, ht, hline⟩ | ⟨hovf, ht, hline⟩ | ⟨hother, hline⟩
  case inl =>
    have hon : on := ⟨hovf, ht⟩
    rw [hexec (ht ▸ hline)]
    simp [hon, bad, applyCommand, checkDriver_eq, finishLine, Command.code, echo, echoPrefix, hlife, Bool.or_comm]
  case inr.inl =>
    have hon : ¬on := fun ⟨_, hon⟩ => absurd (hon.symm.trans ht) (by decide)
    have hoff : off := ⟨hovf, ht⟩
    rw [hexec (ht ▸ hline)]
    simp [hon, hoff, bad, applyCommand, checkDriver_eq, finishLine, Command.code, echo, echoPrefix, hlife, Bool.or_comm]
  case inr.inr =>
    have hon : ¬on := fun ⟨hovf, hon⟩ => (hother.resolve_left (by simp [hovf])).1 hon
    have hoff : ¬off := fun ⟨hovf, hoff⟩ => (hother.resolve_left (by simp [hovf])).2 hoff
    rw [hexec hline]
    simp [hon, hoff, bad, applyCommand, finishLine, Command.code, echo, echoPrefix, hlife, Bool.or_comm]

end Sys2Proof.Proofs
end

section
/-! PROOFS. R97: the commit checks, in their order. -/

namespace Sys2Proof.Machine

variable {s : State}

/-- The outcome of a commit in LOAD by the first check that holds (R97). -/
theorem commit_eq (s : State) :
    commit s =
      if s.pos.toNat < 4 then enterFatal .fmtShortHeader s.loadPos s
      else if s.declCount = 0 then enterFatal .fmtEmpty s.loadPos s
      else if s.pos.toNat < 4 + 4 * s.len.toNat then enterFatal .fmtShortPayload s.loadPos s
      else if s.trailing = true then enterFatal .fmtTrailing s.loadPos s
      else { s with life := .loaded } := by
  unfold commit commitError
  split_ifs <;> rfl

/-- LOAD_COMMIT commits in LOAD (R97). -/
theorem exec_loadCommit_of_load (hlife : s.life = .load) : exec .loadCommit s = .next (respond 0 (commit s)) :=
  congrArg completeWrite (if_pos (beq_iff_eq.2 hlife))

/-- Outside LOAD, LOAD_COMMIT only sets CMD_ERR (R149). -/
theorem exec_loadCommit_of_ne_load (hlife : s.life ≠ .load) : exec .loadCommit s = .next (respond 0 (flagCmdErr s)) :=
  congrArg completeWrite (if_neg (by simpa using hlife))

end Sys2Proof.Machine

namespace Sys2Proof.Proofs

open Sys2Proof Sys2Proof.Machine Sys2Proof.Laws

/-- Settles O22, by the chain of checks in `commit_eq`. -/
theorem commitChecksInOrder : Obligations.CommitChecksInOrder := by
  intro s fatal
  refine ⟨decode_fullWrite .cmd 1, ?_⟩
  by_cases hlife : s.life = .load
  · rw [exec_loadCommit_of_load hlife, commit_eq, if_neg (not_not.2 hlife)]
    split_ifs <;> rfl
  · rw [exec_loadCommit_of_ne_load hlife, if_pos hlife]
    rfl

end Sys2Proof.Proofs
end

section
/-! PROOFS. R95, R101: a whole waveform, from reset to LOADED. -/

namespace Sys2Proof.Machine

variable {s : State}

/-- Storing one list and then, from where it ends, another is storing both. -/
theorem Mem.writeList_append {w : Nat} (xs ys : List (BitVec w)) (m : Mem w) (i : Nat) :
    Mem.writeList m i (xs ++ ys) = Mem.writeList (Mem.writeList m i xs) (i + xs.length) ys := by
  induction xs generalizing m i with
  | nil => rfl
  | cons x xs ih =>
    rw [List.cons_append, Mem.writeList, ih, Mem.writeList, List.length_cons, Nat.add_assoc, Nat.add_comm 1]

/-- `LDW` runs as the LDB of each of its bytes (R95). -/
theorem runInstrs_ldw {s1 s2 s3 t : State} {w : Word} (h1 : exec (.ldb (w.extractLsb' 24 8) 0) s = .next s1)
    (h2 : exec (.ldb (w.extractLsb' 16 8) 0) s1 = .next s2) (h3 : exec (.ldb (w.extractLsb' 8 8) 0) s2 = .next s3)
    (h4 : exec (.ldb (w.extractLsb' 0 8) 0) s3 = .next t) : runInstrs (ldw w) s = .next t :=
  calc runInstrs (ldw w) s
    _ = runInstrs (ldbs [w.extractLsb' 16 8, w.extractLsb' 8 8, w.extractLsb' 0 8]) s1 := runInstrs_cons h1
    _ = runInstrs (ldbs [w.extractLsb' 8 8, w.extractLsb' 0 8]) s2 := runInstrs_cons h2
    _ = runInstrs (ldbs [w.extractLsb' 0 8]) s3 := runInstrs_cons h3
    _ = .next t := runInstrs_cons h4

/-- A header byte before the fourth, with everything it leaves unchanged (R96). -/
theorem exec_ldb_header_of_lt_three (b : Byte) (ig : BitVec 24) (hlife : s.life = .load) (hpos : s.pos.toNat < 3) :
    exec (.ldb b ig) s =
      .next (respond 0 { s with pos := BitVec.ofNat 36 (s.pos.toNat + 1), countSr := shiftIn s.countSr b }) := by
  rw [exec_ldb_header b ig hlife (by omega), advancePos_eq, headerByte_pos, headerByte_of_ne_three b (by omega),
    Nat.min_eq_left (by omega)]

/-- The fourth header byte, with everything it leaves unchanged (R96, R98). -/
theorem exec_ldb_header_of_eq_three (b : Byte) (ig : BitVec 24) (hlife : s.life = .load) (hpos : s.pos.toNat = 3) :
    exec (.ldb b ig) s = .next (respond 0 { s with
      pos := 4, countSr := shiftIn s.countSr b, declCount := shiftIn s.countSr b,
      len := BitVec.ofNat 32 (min (shiftIn s.countSr b).toNat s.cfg.dataCap),
      trunc := decide (s.cfg.dataCap < (shiftIn s.countSr b).toNat) }) := by
  rw [exec_ldb_header b ig hlife (by omega), advancePos_eq, headerByte_pos, headerByte_of_eq_three b hpos, hpos]
  rfl

/-- The header of a waveform, with everything it leaves unchanged (R95, R98). -/
theorem runInstrs_ldw_header (c : Word) (hlife : s.life = .load) (hpos : s.pos = 0) :
    runInstrs (ldw c) s = .next (respond 0 { s with
      pos := 4, countSr := c, declCount := c, len := BitVec.ofNat 32 (min c.toNat s.cfg.dataCap),
      trunc := decide (s.cfg.dataCap < c.toNat) }) := by
  rw [runInstrs_ldw (exec_ldb_header_of_lt_three _ _ hlife (by simp [hpos]))
    (exec_ldb_header_of_lt_three _ _ (by exact hlife) (by simp [hpos]))
    (exec_ldb_header_of_lt_three _ _ (by exact hlife) (by simp [hpos]))
    (exec_ldb_header_of_eq_three _ _ (by exact hlife) (by simp [hpos]))]
  simp only [respond, shiftIn_wordBytes]

/-! ### A sample -/

/-- One of the first three bytes of sample `k`, with everything it leaves unchanged (R96). -/
theorem exec_ldb_sampleByte {k j : Nat} (b : Byte) (ig : BitVec 24) (hlife : s.life = .load)
    (hpos : s.pos.toNat = 4 + 4 * k + j) (hj : j < 3) (hk : k < s.len.toNat) :
    exec (.ldb b ig) s = .next (respond 0 { s with
      pos := BitVec.ofNat 36 (4 + 4 * k + j + 1), wordSr := shiftIn s.wordSr b }) := by
  have hlen := s.len.isLt
  rw [exec_ldb_payload b ig hlife (by omega)]
  rcases payloadByte_cases (b := b) (s := s) rfl with
    ⟨-, hthree, -⟩ | ⟨-, hthree, -⟩ | ⟨-, -, heq⟩ | ⟨hbeyond, -⟩ | ⟨hbeyond, -⟩
  case inr.inr.inl => rw [heq, completeWrite_next, advancePos_eq, hpos, Nat.min_eq_left (by omega)]
  all_goals omega

/-- The last byte of sample `k`: the sample is stored, and everything else is unchanged (R96). -/
theorem exec_ldb_lastSampleByte {k : Nat} (b : Byte) (ig : BitVec 24) (hlife : s.life = .load)
    (hpos : s.pos.toNat = 4 + 4 * k + 3) (hk : k < s.len.toNat) (hcap : k < s.cfg.dataCap) :
    exec (.ldb b ig) s = .next (respond 0 { s with
      pos := BitVec.ofNat 36 (4 + 4 * (k + 1)), wordSr := shiftIn s.wordSr b,
      sample := s.sample.write k (shiftIn s.wordSr b) }) := by
  have hlen := s.len.isLt
  have hindex : (s.pos.toNat - 4) / 4 = k := by omega
  rw [exec_ldb_payload b ig hlife (by omega)]
  rcases payloadByte_cases (b := b) (s := s) rfl with
    ⟨-, -, -, heq⟩ | ⟨-, -, hbeyond, -⟩ | ⟨-, hthree, -⟩ | ⟨hbeyond, -⟩ | ⟨hbeyond, -⟩
  case inl => rw [heq, completeWrite_next, advancePos_eq, hindex, hpos, Nat.min_eq_left (by omega), Nat.mul_add_one]; rfl
  all_goals omega

/-- Sample `k`, with everything it leaves unchanged (R95, R96). -/
theorem runInstrs_ldw_sample {k : Nat} (w : Word) (hlife : s.life = .load) (hpos : s.pos.toNat = 4 + 4 * k)
    (hk : k < s.len.toNat) (hcap : k < s.cfg.dataCap) :
    runInstrs (ldw w) s = .next (respond 0 { s with
      pos := BitVec.ofNat 36 (4 + 4 * (k + 1)), wordSr := w, sample := s.sample.write k w }) := by
  have hlen := s.len.isLt
  have htoNat (j : Nat) (hj : j < 4) : (BitVec.ofNat 36 (4 + 4 * k + j)).toNat = 4 + 4 * k + j :=
    Nat.mod_eq_of_lt (by omega)
  rw [runInstrs_ldw (exec_ldb_sampleByte _ _ hlife (j := 0) hpos (by decide) hk)
    (exec_ldb_sampleByte _ _ (by exact hlife) (htoNat 1 (by decide)) (by decide) (by exact hk))
    (exec_ldb_sampleByte _ _ (by exact hlife) (htoNat 2 (by decide)) (by decide) (by exact hk))
    (exec_ldb_lastSampleByte _ _ (by exact hlife) (htoNat 3 (by decide)) (by exact hk) (by exact hcap))]
  simp only [respond, shiftIn_wordBytes]

/-! ### The samples of a waveform -/

/-- LOAD after a header that declares `n` samples, all of them kept, and the samples `ys` (R54, R96). -/
structure SamplesLoaded (p : Params) (n : Nat) (ys : List Word) (s : State) : Prop where
  cfg : s.cfg = p
  life : s.life = .load
  trunc : s.trunc = false
  cmdErr : s.cmdErr = false
  trailing : s.trailing = false
  declCount : s.declCount.toNat = n
  len : s.len.toNat = n
  pos : s.pos.toNat = 4 + 4 * ys.length
  sample : s.sample = Mem.writeList [] 0 ys

/-- The header from reset (R98, R174). -/
theorem runInstrs_ldw_resetWith {p : Params} {n : Nat} (hn : n ≤ p.dataCap) (hcap : p.dataCap < 2 ^ 32) :
    ∃ t, runInstrs (ldw (BitVec.ofNat 32 n)) (State.resetWith p) = .next t ∧ SamplesLoaded p n [] t := by
  have hcount : (BitVec.ofNat 32 n).toNat = n := Nat.mod_eq_of_lt (by omega)
  refine ⟨_, runInstrs_ldw_header _ rfl rfl, rfl, rfl, ?_, rfl, rfl, hcount, ?_, rfl, rfl⟩
  · exact decide_eq_false (by rw [hcount]; exact hn.not_gt)
  · have hmin : min (BitVec.ofNat 32 n).toNat p.dataCap = n := by rw [hcount]; exact Nat.min_eq_left hn
    exact (congrArg (fun m => (BitVec.ofNat 32 m).toNat) hmin).trans hcount

/-- One more sample (R96). -/
theorem SamplesLoaded.runInstrs_ldw {p : Params} {n : Nat} {ys : List Word} (w : Word) (h : SamplesLoaded p n ys s)
    (hys : ys.length < n) (hn : n ≤ p.dataCap) :
    ∃ t, runInstrs (ldw w) s = .next t ∧ SamplesLoaded p n (ys ++ [w]) t := by
  have hlen := h.len ▸ s.len.isLt
  refine ⟨_, runInstrs_ldw_sample w h.life h.pos (h.len ▸ hys) (h.cfg ▸ hys.trans_le hn), h.cfg, h.life, h.trunc,
    h.cmdErr, h.trailing, h.declCount, h.len, ?_, ?_⟩
  · rw [List.length_append, List.length_singleton]
    exact Nat.mod_eq_of_lt (by omega)
  · rw [Mem.writeList_append, Nat.zero_add, ← h.sample]
    rfl

/-- The samples `xs`, one after the other (R95). -/
theorem SamplesLoaded.runInstrs_flatMap_ldw {p : Params} {n : Nat} {ys : List Word} (xs : List Word) (h : SamplesLoaded p n ys s)
    (hxs : ys.length + xs.length ≤ n) (hn : n ≤ p.dataCap) :
    ∃ t, runInstrs (xs.flatMap ldw) s = .next t ∧ SamplesLoaded p n (ys ++ xs) t := by
  induction xs generalizing s ys with
  | nil => exact ⟨s, rfl, by rwa [List.append_nil]⟩
  | cons x xs ih =>
    rw [List.length_cons] at hxs
    obtain ⟨u, hu, hloaded⟩ := h.runInstrs_ldw x (by omega) hn
    obtain ⟨t, ht, hall⟩ := ih hloaded (by rw [List.length_append, List.length_singleton]; omega)
    exact ⟨t, by rw [List.flatMap_cons, runInstrs_append hu, ht], by rwa [List.append_assoc] at hall⟩

/-- `LDWAVE` from reset (R95). -/
theorem runInstrs_ldwave {p : Params} {xs : List Word} (hxs : xs.length ≤ p.dataCap) (hcap : p.dataCap < 2 ^ 32) :
    ∃ t, runInstrs (ldwave xs) (State.resetWith p) = .next t ∧ SamplesLoaded p xs.length xs t := by
  obtain ⟨u, hu, hheader⟩ := runInstrs_ldw_resetWith hxs hcap
  obtain ⟨t, ht, hall⟩ := hheader.runInstrs_flatMap_ldw xs (by simp) hxs
  exact ⟨t, by rw [ldwave, runInstrs_append hu, ht], hall⟩

/-! ### The commit and the window -/

/-- A complete waveform passes every check of the commit (R97). -/
theorem SamplesLoaded.exec_loadCommit {p : Params} {xs : List Word} (h : SamplesLoaded p xs.length xs s)
    (hxs : 1 ≤ xs.length) : exec .loadCommit s = .next (respond 0 { s with life := .loaded }) := by
  have hpos := h.pos
  have hlen := h.len
  have hdecl : s.declCount ≠ 0 := by
    intro hzero
    have hn := h.declCount
    simp [hzero] at hn
    omega
  rw [exec_loadCommit_of_load h.life, commit_eq, if_neg (by omega), if_neg hdecl, if_neg (by omega),
    if_neg (by simp [h.trailing])]

/-- SAMPLE_DATA of a sample that was wholly accepted (R142). -/
theorem readValue_sampleData {k : Nat} (haddr : s.tblAddr.toNat = k) (hk : k < s.len.toNat)
    (hpos : 4 + 4 * (k + 1) ≤ s.pos.toNat) (hcap : k < s.cfg.dataCap) :
    s.readValue .sampleData = s.sample.read k := by
  have hwindow : s.readValue .sampleData = s.sampleWindow.getD 0 := rfl
  rw [hwindow, sampleWindow_eq, haddr, if_pos ⟨hk, hpos⟩, if_pos hcap, Option.getD_some]

/-- The samples of a list are read back by their indices. -/
theorem SamplesLoaded.read_sample {p : Params} {n k : Nat} {ys : List Word} (h : SamplesLoaded p n ys s)
    (hk : k < ys.length) : s.sample.read k = ys[k] := by
  rw [h.sample, Mem.read_writeList ys [] 0 k rfl, dif_pos ⟨k.zero_le, hk⟩]
  rfl

end Sys2Proof.Machine

namespace Sys2Proof.Proofs

open Sys2Proof Sys2Proof.Machine

/-- Settles O24: the header, the samples by induction on the list, the commit. -/
theorem waveformRoundTrip : Obligations.WaveformRoundTrip := by
  rintro p xs ⟨⟨-, hcap⟩, -⟩ hne hxs
  obtain ⟨u, hu, h⟩ := runInstrs_ldwave hxs hcap
  have hcommit : runInstrs [.loadCommit] u = .next (respond 0 { u with life := .loaded }) :=
    runInstrs_cons (h.exec_loadCommit hne)
  refine ⟨_, (runInstrs_append hu).trans hcommit, rfl, h.len, h.trunc, h.cmdErr, fun k hk => ?_⟩
  have hread := h.read_sample hk
  have haddr : (BitVec.ofNat 32 k).toNat = k := Nat.mod_eq_of_lt (by omega)
  refine ⟨hread, (readValue_sampleData haddr (h.len.symm ▸ hk) ?_ (h.cfg.symm ▸ hk.trans_le hxs)).trans hread⟩
  exact h.pos.symm ▸ (by omega)

end Sys2Proof.Proofs
end

section
/-! PROOFS. R102 to R104: the writes that only some lifecycle states allow. -/

namespace Sys2Proof.Machine

/-- A gated write whose effect is one update of the state, in every lifecycle state (R135, R149). -/
theorem completeWrite_gated_next {legal : Bool} {p : Prop} [Decidable p] (hlegal : legal = true ↔ p)
    (update : State → State) (s : State) : completeWrite (gated legal (fun u => .next (update u)) s) =
      .next (if p then respond 0 (update s) else respond 0 (flagCmdErr s)) := by
  rw [gated_eq]
  by_cases hp : p
  · rw [if_pos (hlegal.2 hp), if_pos hp, completeWrite_next]
  · rw [if_neg (mt hlegal.1 hp), if_neg hp, completeWrite_next]

theorem configOpen_iff {s : State} : s.configOpen = true ↔ s.life = .load ∨ s.life = .loaded := by
  simp [State.configOpen]

end Sys2Proof.Machine

namespace Sys2Proof.Proofs

open Sys2Proof Sys2Proof.Machine Sys2Proof.Laws

/-- Settles O20: both writes are gated by LOAD and LOADED, and store the word as it is. -/
theorem configurationWrites : Obligations.ConfigurationWrites := fun s v =>
  ⟨decode_fullWrite .maxBright v, decode_fullWrite .dynRange v,
    completeWrite_gated_next configOpen_iff (fun u => { u with maxBright := v }) s,
    completeWrite_gated_next configOpen_iff (fun u => { u with dynRange := v }) s⟩

/-- Settles O25: SCALE is gated by LOADED. -/
theorem scaleCommand : Obligations.ScaleCommand :=
  ⟨decode_fullWrite .cmd 2, fun s => completeWrite_gated_next beq_iff_eq (fun u => { u with life := .scaling }) s⟩

end Sys2Proof.Proofs
end

section
/-! PROOFS. R161: the steps without their guards (log 6). -/

namespace Sys2Proof.Machine

variable {s : State}

theorem execRxAccept_of_not_ready (b : Byte) (h : ¬(s.life = .running ∧ s.linePend = false)) :
    execRxAccept b s = .next s := by
  rcases execRxAccept_cases b s with ⟨-, heq⟩ | ⟨hlife, hpend, -⟩
  · exact heq
  · exact absurd ⟨hlife, hpend⟩ h

/-- Without a byte in the queue, or without `tx_ready`, none departs (R131). -/
theorem execTxDepart_of_idle (h : s.txq = [] ∨ s.inp.txReady = false) : execTxDepart s = .next s := by
  refine congrArg Host.Outcome.next (if_neg ?_)
  rcases h with h | h <;> simp [State.txValid, h]

theorem dispatchAs_of_not_pending (c : Command) (t : List Byte) (ovf : Bool)
    (h : ¬(s.life = .running ∧ s.linePend = true)) : dispatchAs c t ovf s = s :=
  if_neg fun hcan => by
    obtain ⟨hlife, hpend, -⟩ := canDispatch_iff.1 hcan
    exact h ⟨hlife, hpend⟩

/-- R126: a line waits until its whole echo fits. -/
theorem dispatchAs_of_txFree_lt (c : Command) {t : List Byte} (ovf : Bool) (h : s.txFree < 16 + t.length) :
    dispatchAs c t ovf s = s :=
  if_neg fun hcan => by
    obtain ⟨-, -, hroom⟩ := canDispatch_iff.1 hcan
    omega

/-- A complete line without room for its echo is left waiting (R126). -/
theorem execDispatch_of_txFree_lt (hlen : s.lineLen.toNat ≤ s.cfg.lineMax)
    (hroom : s.txFree < 16 + (strip (lineBytes s.lineBuf s.lineLen.toNat)).length) : execDispatch s = .next s := by
  rcases execDispatch_cases s with ⟨-, heq⟩ | ⟨-, -, hbeyond, -⟩ | ⟨-, -, -, c, t, hline, heq⟩
  · exact heq
  · omega
  · obtain rfl : strip (lineBytes s.lineBuf s.lineLen.toNat) = t := congrArg Prod.snd hline
    rw [heq, dispatchAs_of_txFree_lt c s.lineOvf hroom]

end Sys2Proof.Machine

namespace Sys2Proof.Proofs

open Sys2Proof Sys2Proof.Machine

/-- Settles O47, guard by guard. -/
theorem disabledStepsChangeNothing : Obligations.DisabledStepsChangeNothing := by
  intro s b t ovf
  have hrow {c : Command} {text : List Byte} {o : Bool} (h : dispatchAs c text o s = s) :
      (.next (dispatchAs c text o s) : Result) = .next s := congrArg _ h
  refine ⟨fun h => if_neg h, fun h => congrArg _ (if_neg h), fun h => if_neg h, execRxAccept_of_not_ready b,
    execTxDepart_of_idle, fun h => ⟨if_neg h, ?on, ?off, ?other⟩, execDispatch_of_txFree_lt, ?onRoom, ?offRoom,
    ?otherRoom⟩
  case on | off | other => exact hrow (dispatchAs_of_not_pending _ _ _ h)
  case onRoom | offRoom | otherRoom => exact fun h => hrow (dispatchAs_of_txFree_lt _ _ h)

end Sys2Proof.Proofs
end

section
/-! PROOFS. R163: a turn of the scaler ends SCALING, and no other turn is lost on the way to it. -/

namespace Sys2Proof.Machine

variable {s : State}

/-! ### The schedule is the environment's (log 1) -/

/-- `t` has the schedule of `s`. -/
def KeepsSchedule (s t : State) : Prop := t.schedule = s.schedule

theorem gatedWrite_keepsSchedule {legal : Bool} {effect : State → Result}
    (heffect : NextMeets (KeepsSchedule s) (effect s)) :
    NextMeets (KeepsSchedule s) (completeWrite (gated legal effect s)) :=
  nextMeets_gatedWrite (fun _ hu => hu) rfl fun _ => heffect

theorem acceptByte_keepsSchedule (b : Byte) (s : State) : NextMeets (KeepsSchedule s) (acceptByte b s) := by
  unfold acceptByte
  split
  · refine nextMeets_next.2 ?_
    unfold headerByte
    split <;> rfl
  · rcases payloadByte_cases (b := b) (s := s) rfl with
      ⟨-, -, -, heq⟩ | ⟨-, -, -, heq⟩ | ⟨-, -, heq⟩ | ⟨-, -, heq⟩ | ⟨-, -, heq⟩ <;> rw [heq]
    case inr.inl => exact nextMeets_fault _
    all_goals exact nextMeets_next.2 rfl

theorem commit_schedule (s : State) : (commit s).schedule = s.schedule := by
  rcases commit_cases s with ⟨c, heq⟩ | ⟨-, heq⟩ <;> rw [heq]
  · exact enterFatal_schedule c s.loadPos s

theorem startPlayback_keepsSchedule (s : State) : NextMeets (KeepsSchedule s) (startPlayback s) := by
  rcases startPlayback_cases s with ⟨-, heq⟩ | ⟨-, heq⟩ <;> rw [heq]
  · exact nextMeets_next.2 (checkDriver_schedule _ _)
  · exact nextMeets_fault _

theorem scaleSamples_schedule (w : Word) (ws : List Word) (s : State) :
    (scaleSamples w ws s).schedule = s.schedule := by
  rcases scaleSamples_cases w ws s with ⟨i, -, heq⟩ | ⟨-, -, heq⟩ | ⟨ds, -, -, heq⟩ <;> rw [heq] <;> rfl

theorem execScalerStep_keepsSchedule (s : State) : NextMeets (KeepsSchedule s) (execScalerStep s) := by
  rcases execScalerStep_cases s with
    ⟨-, heq⟩ | ⟨-, -, heq⟩ | ⟨-, -, heq⟩ | ⟨-, -, heq⟩ | ⟨w, ws, -, -, -, -, -, heq⟩ <;> rw [heq]
  · exact nextMeets_next.2 rfl
  · exact nextMeets_next.2 rfl
  · exact nextMeets_fault _
  · exact nextMeets_fault _
  · exact nextMeets_next.2 (scaleSamples_schedule w ws s)

theorem execTickStep_keepsSchedule (s : State) : NextMeets (KeepsSchedule s) (execTickStep s) := by
  rcases execTickStep_cases s with ⟨-, heq⟩ | ⟨-, -, -, -, heq⟩ | ⟨-, -, -, f, heq⟩ <;> rw [heq]
  · exact nextMeets_next.2 rfl
  · exact nextMeets_next.2 (checkDriver_schedule _ _)
  · exact nextMeets_fault _

theorem execRxAccept_keepsSchedule (b : Byte) (s : State) : NextMeets (KeepsSchedule s) (execRxAccept b s) := by
  rcases execRxAccept_cases b s with ⟨-, heq⟩ | ⟨-, -, ⟨-, heq⟩ | ⟨-, -, heq⟩ | ⟨-, -, heq⟩⟩ <;> rw [heq] <;>
    exact nextMeets_next.2 rfl

theorem dispatchAs_schedule (c : Command) (t : List Byte) (ovf : Bool) (s : State) :
    (dispatchAs c t ovf s).schedule = s.schedule := by
  rcases dispatchAs_cases c t ovf s with ⟨-, heq⟩ | ⟨-, -, -, heq⟩ <;> rw [heq]
  obtain ⟨r, heq | ⟨-, -, heq⟩⟩ := applyCommand_cases c (finishLine c t ovf s) <;> rw [heq] <;> rfl

theorem execDispatch_keepsSchedule (s : State) : NextMeets (KeepsSchedule s) (execDispatch s) := by
  rcases execDispatch_cases s with ⟨-, heq⟩ | ⟨-, -, -, heq⟩ | ⟨-, -, -, c, t, -, heq⟩ <;> rw [heq]
  · exact nextMeets_next.2 rfl
  · exact nextMeets_fault _
  · exact nextMeets_next.2 (dispatchAs_schedule c t s.lineOvf s)

theorem clockCycle_schedule (s : State) : (clockCycle s).schedule = s.schedule := by
  rw [clockCycle, clockPwm_eq, clockPoll_eq, clockTimebase_eq]

theorem exec_keepsSchedule (i : Instr) (s : State) : NextMeets (KeepsSchedule s) (exec i s) := by
  cases i with
  | busMisalignedW | busMisalignedR | busPartial | busUnmappedW | busUnmappedR | nop | wrRo | cmdIllegal | wrStatus
  | wrTblAddr | wrIrqEn | rd | rdWo | pwmReload | reset => exact nextMeets_next.2 rfl
  | rdLut => exact nextMeets_execRdLut fun _ => rfl
  | rdSample => exact nextMeets_execRdSample fun _ => rfl
  | wrMaxBright | wrDynRange | scale => exact gatedWrite_keepsSchedule (nextMeets_next.2 rfl)
  | ldb b => exact gatedWrite_keepsSchedule (acceptByte_keepsSchedule b s)
  | loadCommit => exact gatedWrite_keepsSchedule (nextMeets_next.2 (commit_schedule s))
  | start => exact gatedWrite_keepsSchedule (startPlayback_keepsSchedule s)
  | scalerStep => exact execScalerStep_keepsSchedule s
  | tickStep => exact execTickStep_keepsSchedule s
  | rxAccept b => exact execRxAccept_keepsSchedule b s
  | lineOn | lineOff | lineOther => exact nextMeets_next.2 (dispatchAs_schedule _ _ _ s)
  | dispatch => exact execDispatch_keepsSchedule s
  | tickDue | txDepart =>
    refine nextMeets_next.2 (show State.schedule _ = _ from ?_)
    split <;> rfl

/-- A step uses up one turn (R71, log 1). -/
theorem step_schedule : NextMeets (fun t => t.schedule = s.schedule.tail) (step s) := by
  rw [← State.takeTurn_schedule]
  rcases step_cases (s := s) rfl with ⟨i, -, heq⟩ | ⟨-, heq⟩ | ⟨-, heq⟩ <;> rw [heq]
  · exact exec_keepsSchedule i s.takeTurn
  · exact nextMeets_next.2 (clockCycle_schedule s.takeTurn)
  · exact nextMeets_next.2 rfl

/-! ### The scaler's turn -/

/-- The scaler step ends SCALING, in SCALED or in FATAL (R105). -/
theorem execScalerStep_ends_scaling (s : State) : NextMeets (fun t => t.life ≠ .scaling) (execScalerStep s) := by
  rcases execScalerStep_cases s with
    ⟨hlife, heq⟩ | ⟨-, -, heq⟩ | ⟨-, -, heq⟩ | ⟨-, -, heq⟩ | ⟨w, ws, -, -, -, -, -, heq⟩ <;> rw [heq]
  · exact nextMeets_next.2 hlife
  · exact nextMeets_next.2 nofun
  · exact nextMeets_fault _
  · exact nextMeets_fault _
  · refine nextMeets_next.2 ?_
    rcases scaleSamples_cases w ws s with ⟨i, -, heq⟩ | ⟨-, -, heq⟩ | ⟨ds, -, -, heq⟩ <;> rw [heq] <;> nofun

theorem fetch_scaler {p : Inputs} (hrst : p.rst = false) : fetch .scaler p = .run .scalerStep := by
  simp [fetch, hrst]

theorem nextTurn_eq_getElem (h : 0 < s.schedule.length) : s.nextTurn = s.schedule[0] := by
  unfold State.nextTurn
  split
  next hs => simp only [hs, List.getElem_cons_zero]
  next hs => simp [hs] at h

theorem step_ends_scaling (hagent : s.nextTurn.agent = .scaler) (hrst : s.nextTurn.inputs.rst = false) :
    NextMeets (fun t => t.life ≠ .scaling) (step s) := by
  rw [step_of_fetch_run (by rw [hagent, fetch_scaler hrst])]
  exact execScalerStep_ends_scaling s.takeTurn

theorem runSteps_succ {n : Nat} {t : State} (h : step s = .next t) : runSteps (n + 1) s = runSteps n t := by
  rw [runSteps, h]

/-- By the position of the scaler's turn: each turn before it ends SCALING itself, by a reset, or is used up. -/
theorem scaling_ends (k : Nat) (hk : k < s.schedule.length) (h : Inv s) (hagent : s.schedule[k].agent = .scaler)
    (hrst : s.schedule[k].inputs.rst = false) : ∃ n t, n ≤ k + 1 ∧ runSteps n s = .next t ∧ t.life ≠ .scaling := by
  induction k generalizing s with
  | zero =>
    obtain ⟨t, ht⟩ := step_answers h
    rw [← nextTurn_eq_getElem hk] at hagent hrst
    exact ⟨1, t, le_rfl, runSteps_succ ht, step_ends_scaling hagent hrst t ht⟩
  | succ k ih =>
    obtain ⟨t, ht⟩ := step_answers h
    have htail : t.schedule = s.schedule.tail := step_schedule t ht
    have hkt : k < t.schedule.length := by rw [htail, List.length_tail]; omega
    have hturn : t.schedule[k] = s.schedule[k + 1] := by simp only [htail, List.getElem_tail]
    obtain ⟨n, u, hn, hrun, hu⟩ := ih hkt (step_meets_inv h t ht) (hturn ▸ hagent) (hturn ▸ hrst)
    exact ⟨n + 1, u, Nat.succ_le_succ hn, (runSteps_succ ht).trans hrun, hu⟩

end Sys2Proof.Machine

namespace Sys2Proof.Proofs

open Sys2Proof Sys2Proof.Machine

/-- Settles O60, by induction on the position of the scaler's turn. -/
theorem scalingEndsWithTheScalersTurn : Obligations.ScalingEndsWithTheScalersTurn :=
  fun _ k hk h _ hagent hrst => scaling_ends k hk h hagent hrst

end Sys2Proof.Proofs
end

section
/-! PROOFS. R110, R111, R114: the range of every intermediate of the scaler step. -/

namespace Sys2Proof.Machine

/-! ### BIN32 values (R84) -/

/-- The last place of a subnormal BIN32 value, 2^-149, in units (R84). -/
def F64.bin32Ulp : Nat := 2 ^ 925

theorem F64.two_pow_add (k : Nat) : 2 ^ (k + 1074) = 2 ^ k * F64.one := pow_add 2 k 1074

theorem F64.one_eq_mul_bin32Ulp : F64.one = 2 ^ 149 * F64.bin32Ulp := by
  rw [F64.one, F64.bin32Ulp, ← pow_add]

theorem F64.bin32Ulp_pos : 0 < F64.bin32Ulp := by
  unfold F64.bin32Ulp
  positivity

/-- A BIN32 value has 24 significant bits, and its last place is between 2^-149 and 2^104 when it is finite. -/
theorem F64.ofBin32_significand (w : Word) : ∃ m e : Nat, m < 2 ^ 24 ∧ 925 ≤ e ∧
    (isFinite32 w = true → e ≤ 104 + 1074) ∧ (F64.ofBin32 w).units.natAbs = m * 2 ^ e := by
  have hfraction := (w.extractLsb' 0 23).isLt
  have hexponent := (w.extractLsb' 23 8).isLt
  obtain ⟨m, e, hm, he, hfinite, hmag⟩ : ∃ m e : Nat, m < 2 ^ 24 ∧ 925 ≤ e ∧ (isFinite32 w = true → e ≤ 104 + 1074) ∧
      bin32Magnitude (w.extractLsb' 23 8).toNat (w.extractLsb' 0 23).toNat = m * 2 ^ e := by
    rw [isFinite32_iff]
    unfold bin32Magnitude
    split
    · exact ⟨_, _, by omega, by omega, by omega, rfl⟩
    · exact ⟨_, _, by omega, by omega, by omega, rfl⟩
  refine ⟨m, e, hm, he, hfinite, ?_⟩
  rw [F64.ofBin32_units, hmag]
  split
  · rw [Int.natAbs_neg, Int.natAbs_natCast]
  · rw [Int.natAbs_natCast]

/-- R114: a finite sample is below 2^128. -/
theorem F64.ofBin32_natAbs_lt {w : Word} (hw : isFinite32 w = true) :
    (F64.ofBin32 w).units.natAbs < 2 ^ 128 * F64.one := by
  obtain ⟨m, e, hm, -, he, hunits⟩ := F64.ofBin32_significand w
  rw [hunits]
  calc m * 2 ^ e < 2 ^ 24 * 2 ^ e := Nat.mul_lt_mul_of_pos_right hm (by positivity)
    _ ≤ 2 ^ 24 * 2 ^ (104 + 1074) := Nat.mul_le_mul_left _ (pow_le_pow_right₀ one_le_two (he hw))
    _ = 2 ^ 24 * 2 ^ 104 * F64.one := by rw [F64.two_pow_add, mul_assoc]
    _ = 2 ^ 128 * F64.one := by rw [← pow_add]

/-- R114: every BIN32 value is a whole multiple of 2^-149. -/
theorem F64.dvd_ofBin32 (w : Word) : (F64.bin32Ulp : Int) ∣ (F64.ofBin32 w).units := by
  obtain ⟨m, e, -, he, -, hunits⟩ := F64.ofBin32_significand w
  have hplace : F64.bin32Ulp ∣ 2 ^ e := pow_dvd_pow 2 he
  rw [← Int.dvd_natAbs, hunits]
  exact Int.natCast_dvd_natCast.2 (hplace.mul_left m)

/-- A valid configuration word is a number in [0, 1] (R106). -/
theorem ofBin32_of_cfgOk {w : Word} (hw : cfgOk w = true) :
    0 ≤ (F64.ofBin32 w).units ∧ (F64.ofBin32 w).units ≤ (F64.ofNat 1).units :=
  ((Proofs.configCheckIsTheUnitInterval w).1 hw).2

/-! ### Bounds that an operation keeps -/

theorem F64.mul_nonneg {x y : F64} (hx : 0 ≤ x.units) (hy : 0 ≤ y.units) : 0 ≤ (x.mul y).units :=
  F64.round_nonneg _ (Int.mul_nonneg hx hy)

/-- Subtracting a nonnegative value does not lead above a value of the format. -/
theorem F64.sub_le_self {x y : F64} (hr : x.IsRep) (hy : 0 ≤ y.units) : (x.sub y).units ≤ x.units := by
  conv_rhs => rw [← F64.round_of_isRep hr]
  exact F64.round_mono Nat.one_pos Nat.one_pos (by omega)

/-- The magnitude of `x` is at most `2 ^ k`. -/
def F64.Within (k : Nat) (x : F64) : Prop := x.units.natAbs ≤ 2 ^ k * F64.one

theorem F64.Within.mono {k n : Nat} {x : F64} (h : x.Within k) (hkn : k ≤ n) : x.Within n :=
  h.trans (Nat.mul_le_mul_right _ (Nat.pow_le_pow_right (by decide) hkn))

theorem F64.Within.natAbs_lt {k n : Nat} {x : F64} (h : x.Within k) (hkn : k < n) :
    x.units.natAbs < 2 ^ n * F64.one :=
  h.trans_lt (Nat.mul_lt_mul_of_pos_right (Nat.pow_lt_pow_right (by decide) hkn) F64.one_pos)

/-- A value between 0 and 65535 is at most 2^16. -/
theorem F64.within_of_le_65535 {x : F64} (h0 : 0 ≤ x.units) (hx : x.units ≤ (65535 * F64.one : Nat)) : x.Within 16 := by
  unfold F64.Within
  omega

/-- A power of two is a value of the format, so rounding does not lead above it. -/
theorem F64.round_within {n : Int} {d k : Nat} (hd : 0 < d) (h : n.natAbs ≤ 2 ^ k * F64.one * d) :
    (F64.round n d).Within k := by
  have hpow : 2 ^ k * F64.one = 1 * 2 ^ (k + 1074) := by rw [one_mul, F64.two_pow_add]
  unfold F64.Within
  rw [hpow] at h ⊢
  exact F64.round_natAbs_le hd Nat.one_le_two_pow h

theorem F64.Within.add {k : Nat} {x y : F64} (hx : x.Within k) (hy : y.Within k) : (x.add y).Within (k + 1) := by
  refine F64.round_within Nat.one_pos ?_
  unfold F64.Within at hx hy
  rw [pow_succ, mul_one, mul_right_comm]
  omega

theorem F64.Within.sub {k : Nat} {x y : F64} (hx : x.Within k) (hy : y.Within k) : (x.sub y).Within (k + 1) := by
  refine F64.round_within Nat.one_pos ?_
  unfold F64.Within at hx hy
  rw [pow_succ, mul_one, mul_right_comm]
  omega

theorem F64.Within.mul {j k : Nat} {x y : F64} (hx : x.Within j) (hy : y.Within k) : (x.mul y).Within (j + k) := by
  refine F64.round_within F64.one_pos ?_
  calc (x.units * y.units).natAbs = x.units.natAbs * y.units.natAbs := Int.natAbs_mul _ _
    _ ≤ 2 ^ j * F64.one * (2 ^ k * F64.one) := Nat.mul_le_mul hx hy
    _ = 2 ^ (j + k) * F64.one * F64.one := by rw [pow_add]; ring

/-- Dividing by at least 2^-149 multiplies a magnitude by at most 2^149. -/
theorem F64.Within.div {k : Nat} {x y : F64} (hx : x.Within k) (hy : F64.bin32Ulp ≤ y.units) :
    (x.div y).Within (k + 149) := by
  have hdiv : F64.bin32Ulp ≤ y.units.toNat := by omega
  have hpos : 0 < y.units.toNat := F64.bin32Ulp_pos.trans_le hdiv
  rw [F64.div_of_pos x (Int.pos_iff_toNat_pos.2 hpos)]
  refine F64.round_within hpos ?_
  calc (x.units * F64.one).natAbs = x.units.natAbs * F64.one := by rw [Int.natAbs_mul, Int.natAbs_natCast]
    _ ≤ 2 ^ k * F64.one * F64.one := Nat.mul_le_mul_right _ hx
    _ = 2 ^ k * F64.one * (2 ^ 149 * F64.bin32Ulp) := by rw [← F64.one_eq_mul_bin32Ulp]
    _ = 2 ^ (k + 149) * F64.one * F64.bin32Ulp := by rw [pow_add]; ring
    _ ≤ 2 ^ (k + 149) * F64.one * y.units.toNat := Nat.mul_le_mul_left _ hdiv

/-! ### The envelope (R110) -/

variable {mb dr : Word}

/-- R110: 24 bits by 16 bits fit the 53 of the format, so `max_desired` is exact. -/
theorem maxDesired_units (mb : Word) : (maxDesired mb).units = (F64.ofBin32 mb).units * 65535 := by
  have hrep : (F64.mk ((F64.ofBin32 mb).units * 65535)).IsRep := by
    obtain ⟨m, e, hm, -, -, hunits⟩ := F64.ofBin32_significand mb
    exact ⟨m * 65535, e, by omega, by rw [Int.natAbs_mul, hunits, mul_right_comm]; rfl⟩
  have hexact : maxDesired mb = ⟨(F64.ofBin32 mb).units * 65535⟩ := by
    rw [maxDesired, F64.mul, F64.ofNat_units, ← mul_assoc, F64.round_mul_self _ F64.one_pos]
    exact F64.round_of_isRep hrep
  rw [hexact]

theorem maxDesired_isRep (mb : Word) : (maxDesired mb).IsRep := F64.round_isRep _ _

theorem maxDesired_nonneg (hm : cfgOk mb = true) : 0 ≤ (maxDesired mb).units :=
  F64.mul_nonneg (ofBin32_of_cfgOk hm).1 (Int.natCast_nonneg _)

theorem maxDesired_le (hm : cfgOk mb = true) : (maxDesired mb).units ≤ (65535 * F64.one : Nat) := by
  have hle := (ofBin32_of_cfgOk hm).2
  rw [F64.ofNat_units] at hle
  rw [maxDesired_units]
  omega

theorem minDesired_nonneg (hm : cfgOk mb = true) (hd : cfgOk dr = true) : 0 ≤ (minDesired mb dr).units :=
  F64.mul_nonneg (maxDesired_nonneg hm) (ofBin32_of_cfgOk hd).1

theorem minDesired_le_maxDesired (hm : cfgOk mb = true) (hd : cfgOk dr = true) :
    (minDesired mb dr).units ≤ (maxDesired mb).units :=
  F64.mul_le_of_le_one (maxDesired_isRep mb) (maxDesired_nonneg hm) (ofBin32_of_cfgOk hd).2

/-- R111: `desired_range` is between 0 and 65535. -/
theorem desiredRange_bounds (hm : cfgOk mb = true) (hd : cfgOk dr = true) :
    0 ≤ ((maxDesired mb).sub (minDesired mb dr)).units ∧
    ((maxDesired mb).sub (minDesired mb dr)).units ≤ (65535 * F64.one : Nat) :=
  ⟨F64.sub_nonneg (minDesired_le_maxDesired hm hd),
    (F64.sub_le_self (maxDesired_isRep mb) (minDesired_nonneg hm hd)).trans (maxDesired_le hm)⟩

/-- R112: the factor `1.0 -. dr` of REFERENCE is between 0 and 1. -/
theorem oneMinusDynRange_bounds (hd : cfgOk dr = true) :
    0 ≤ ((F64.ofNat 1).sub (F64.ofBin32 dr)).units ∧
    ((F64.ofNat 1).sub (F64.ofBin32 dr)).units ≤ (F64.ofNat 1).units :=
  ⟨F64.sub_nonneg (ofBin32_of_cfgOk hd).2,
    F64.sub_le_self (F64.ofNat_isRep Nat.one_le_two_pow) (ofBin32_of_cfgOk hd).1⟩

/-- R112: the upper end of REFERENCE is between 0 and 65535. -/
theorem referenceCeiling_bounds (hm : cfgOk mb = true) (hd : cfgOk dr = true) :
    0 ≤ ((maxDesired mb).mul ((F64.ofNat 1).sub (F64.ofBin32 dr))).units ∧
    ((maxDesired mb).mul ((F64.ofNat 1).sub (F64.ofBin32 dr))).units ≤ (65535 * F64.one : Nat) := by
  obtain ⟨h0, h1⟩ := oneMinusDynRange_bounds hd
  exact ⟨F64.mul_nonneg (maxDesired_nonneg hm) h0,
    (F64.mul_le_of_le_one (maxDesired_isRep mb) (maxDesired_nonneg hm) h1).trans (maxDesired_le hm)⟩

/-! ### Scale, shift and the scaled value (R111 to R113) -/

/-- R115: `scale` is not negative. -/
theorem scaleFactor_nonneg {mn mx : F64} (hm : cfgOk mb = true) (hd : cfgOk dr = true) (hle : mn.units ≤ mx.units) :
    0 ≤ (scaleFactor mb dr mn mx).units :=
  F64.div_nonneg (desiredRange_bounds hm hd).1 (F64.sub_nonneg hle)

/-- R114: two distinct BIN32 values differ by at least 2^-149. -/
theorem le_observedRange {mn mx : Word} (hlt : (F64.ofBin32 mn).units < (F64.ofBin32 mx).units) :
    F64.bin32Ulp ≤ ((F64.ofBin32 mx).sub (F64.ofBin32 mn)).units := by
  have hexact : F64.bin32Ulp ≤ (F64.ofBin32 mx).units - (F64.ofBin32 mn).units :=
    Int.le_of_dvd (Int.sub_pos.2 hlt) (dvd_sub (F64.dvd_ofBin32 mx) (F64.dvd_ofBin32 mn))
  have hrep : (F64.mk F64.bin32Ulp).IsRep :=
    ⟨1, 925, Nat.one_le_two_pow, by rw [Int.natAbs_natCast, one_mul, F64.bin32Ulp]⟩
  calc (F64.bin32Ulp : Int) = (F64.round F64.bin32Ulp 1).units := congrArg F64.units (F64.round_of_isRep hrep).symm
    _ ≤ _ := F64.round_mono Nat.one_pos Nat.one_pos (mul_le_mul_of_nonneg_right hexact (by decide))

theorem F64.ofBin32_within {w : Word} (hw : isFinite32 w = true) : (F64.ofBin32 w).Within 128 :=
  (F64.ofBin32_natAbs_lt hw).le

theorem scaleFactor_within {mn mx : Word} (hm : cfgOk mb = true) (hd : cfgOk dr = true)
    (hlt : (F64.ofBin32 mn).units < (F64.ofBin32 mx).units) :
    (scaleFactor mb dr (F64.ofBin32 mn) (F64.ofBin32 mx)).Within 165 := by
  obtain ⟨h0, hle⟩ := desiredRange_bounds hm hd
  exact (F64.within_of_le_65535 h0 hle).div (le_observedRange hlt)

/-- Both forms of `shift` take `min_val *. scale` from a value between 0 and 65535 (R112). -/
theorem shiftTerm_within {mn scale : F64} (form : ShiftForm) (hm : cfgOk mb = true) (hd : cfgOk dr = true)
    (hproduct : (mn.mul scale).Within 293) : (shiftTerm form mb dr mn scale).Within 294 := by
  cases form with
  | floor =>
    have hmin := (minDesired_le_maxDesired hm hd).trans (maxDesired_le hm)
    exact ((F64.within_of_le_65535 (minDesired_nonneg hm hd) hmin).mono (by decide)).sub hproduct
  | reference =>
    obtain ⟨h0, hle⟩ := referenceCeiling_bounds hm hd
    exact ((F64.within_of_le_65535 h0 hle).mono (by decide)).sub hproduct

end Sys2Proof.Machine

namespace Sys2Proof.Proofs

open Sys2Proof Sys2Proof.Machine

/-- Settles O31: the envelope by R110, every later value by the magnitudes of its operands. -/
theorem scalerIntermediatesStayFinite : Obligations.ScalerIntermediatesStayFinite := by
  intro form mb dr mn mx x hm hd hmn hmx hx hlt _ _ maxD minD observed desired scale oneMinusDr shift
  have hscale : scale.Within 165 := scaleFactor_within hm hd hlt
  have hscale0 : 0 ≤ scale.units := scaleFactor_nonneg hm hd hlt.le
  have hproduct : ((F64.ofBin32 mn).mul scale).Within 293 := ((F64.ofBin32_within hmn).mul hscale).mono (by decide)
  have hscaled : (scale.mul (F64.ofBin32 x)).Within 293 := (hscale.mul (F64.ofBin32_within hx)).mono (by decide)
  have hshift : shift.Within 294 := shiftTerm_within form hm hd hproduct
  have hvalue : (scaledValue shift scale (F64.ofBin32 x)).Within 295 := hshift.add (hscaled.mono (by decide))
  have hobserved : observed.Within 129 := (F64.ofBin32_within hmx).sub (F64.ofBin32_within hmn)
  have hone : (F64.ofNat 1).units = F64.one := one_mul _
  have hulp : (F64.bin32Ulp : Int) = 2 ^ 925 := by rw [F64.bin32Ulp, Nat.cast_pow, Nat.cast_ofNat]
  exact ⟨F64.ofBin32_natAbs_lt hx, ⟨maxDesired_units mb, maxDesired_le hm⟩,
    ⟨minDesired_nonneg hm hd, minDesired_le_maxDesired hm hd⟩,
    ⟨hulp ▸ le_observedRange hlt, Int.le_natAbs.trans (Int.ofNat_le.2 hobserved)⟩, desiredRange_bounds hm hd,
    ⟨hscale0, Int.le_natAbs.trans_lt (Int.ofNat_lt.2 (hscale.natAbs_lt (by decide)))⟩, hproduct.natAbs_lt (by decide),
    hscaled.natAbs_lt (by decide), hone ▸ oneMinusDynRange_bounds hd, referenceCeiling_bounds hm hd,
    hshift.natAbs_lt (by decide), hvalue.natAbs_lt (by decide)⟩

end Sys2Proof.Proofs
end

section
/-! PROOFS. R105 to R113, R115: what the scaler step answers, by its configuration and its samples. -/

namespace Sys2Proof.Machine

variable {s : State}

/-! ### The samples of a series (R105) -/

theorem exists_samples_cons (h : 1 ≤ s.len.toNat) :
    ∃ w ws, w :: ws = (List.range s.len.toNat).map s.sample.read := by
  obtain ⟨w, ws, hws⟩ := List.exists_cons_of_length_pos (l := (List.range s.len.toNat).map s.sample.read) (by simpa)
  exact ⟨w, ws, hws.symm⟩

/-- What holds of every sample below LEN holds of every sample of the series, and the other way round. -/
theorem forall_mem_samples {P : Word → Prop} : (∀ x ∈ (List.range s.len.toNat).map s.sample.read, P x) ↔
    ∀ i < s.len.toNat, P (s.sample.read i) := by
  simp

/-! ### The configuration check (R106) -/

theorem exec_scalerStep_of_cfgBad (hlife : s.life = .scaling)
    (h : ¬(cfgOk s.maxBright = true ∧ cfgOk s.dynRange = true)) :
    exec .scalerStep s = .next (enterFatal .cfgRange (cfgBad s.maxBright s.dynRange) s) :=
  (if_pos hlife).trans (if_pos (mt (cfgBad_eq_zero _ _).1 h))

/-- After the configuration check the step goes on to the samples. -/
theorem exec_scalerStep_of_cfgOk {w : Word} {ws : List Word} (hlife : s.life = .scaling)
    (hm : cfgOk s.maxBright = true) (hd : cfgOk s.dynRange = true) (hcap : s.len.toNat ≤ s.cfg.dataCap)
    (hws : w :: ws = (List.range s.len.toNat).map s.sample.read) :
    exec .scalerStep s = .next (scaleSamples w ws s) := by
  have hsamples : s.samples = some (w :: ws) := by rw [State.samples, if_pos hcap, hws]
  have hexec : exec .scalerStep s = execScalerStep s := rfl
  rw [hexec, execScalerStep, if_pos hlife, if_neg (not_not.2 ((cfgBad_eq_zero _ _).2 ⟨hm, hd⟩)), hsamples]

/-! ### The samples, one result each (R107, R109, R113) -/

variable {w : Word} {ws : List Word}

theorem scaleSamples_of_nonfinite {i : Nat} (h : firstNonfinite (w :: ws) = some i) :
    scaleSamples w ws s = enterFatal .nonfiniteSample (BitVec.ofNat 32 i) s := by
  rw [scaleSamples, h]

theorem scaleSamples_of_degenerate (hfinite : firstNonfinite (w :: ws) = none)
    (h : lutOf s.cfg.shiftForm s.maxBright s.dynRange w ws = none) :
    scaleSamples w ws s = enterFatal .degenerate s.len s := by
  rw [scaleSamples, hfinite]
  simp only [h]

theorem scaleSamples_of_lutOf {ds : List Duty} (hfinite : firstNonfinite (w :: ws) = none)
    (h : lutOf s.cfg.shiftForm s.maxBright s.dynRange w ws = some ds) :
    scaleSamples w ws s = { s with lut := s.lut.writeList 0 ds, lutValid := true, life := .scaled } := by
  rw [scaleSamples, hfinite]
  simp only [h]

/-! ### The duty of a sample (R110 to R113, R115) -/

/-- The duty of sample `x` in a series with the extremes `mm`. -/
def dutyOf (form : ShiftForm) (mb dr : Word) (mm : F64 × F64) (x : Word) : Duty :=
  clampDuty (scaledValue (shiftTerm form mb dr mm.1 (scaleFactor mb dr mm.1 mm.2)) (scaleFactor mb dr mm.1 mm.2)
    (F64.ofBin32 x))

/-- Every LUT is made of the duties of its samples. -/
theorem exists_extremes_of_lutOf {form : ShiftForm} {mb dr : Word} {ds : List Duty}
    (h : lutOf form mb dr w ws = some ds) :
    ∃ mm, IsExtremes mm ((w :: ws).map F64.ofBin32) ∧ ds = (w :: ws).map (dutyOf form mb dr mm) := by
  refine ⟨_, extremes_spec (F64.ofBin32 w) (ws.map F64.ofBin32), ?_⟩
  unfold lutOf at h
  simp only at h
  split at h
  · cases h
  · exact (Option.some.inj h).symm

theorem clampDuty_mono {u v : F64} (h : u.units ≤ v.units) : (clampDuty u).toNat ≤ (clampDuty v).toNat := by
  have htrunc := F64.trunc_mono h
  have hu := clampDuty_toNat u
  have hv := clampDuty_toNat v
  omega

/-- R115: `scale` is not negative, and every operation after it keeps the order. -/
theorem dutyOf_mono {mb dr x y : Word} {mm : F64 × F64} (form : ShiftForm) (hm : cfgOk mb = true)
    (hd : cfgOk dr = true) (hmm : mm.1.units ≤ mm.2.units) (hxy : (F64.ofBin32 x).units ≤ (F64.ofBin32 y).units) :
    (dutyOf form mb dr mm x).toNat ≤ (dutyOf form mb dr mm y).toNat :=
  clampDuty_mono (F64.add_mono_right _ (F64.mul_mono_right (scaleFactor_nonneg hm hd hmm) hxy))

/-! ### The finished LUT (R105, R113) -/

/-- What a series stored from index 0 reads back as: its entries below its length, the old ones from there on. -/
theorem Mem.read_writeList_range {b : Nat} {m : Mem b} (hm : Mem.wf m = true) (n : Nat) (g : Nat → BitVec b) (i : Nat) :
    (m.writeList 0 ((List.range n).map g)).read i = if i < n then g i else m.read i := by
  rw [Mem.read_writeList _ _ _ _ hm]
  simp

/-- `s` after a scaler step that found the extremes `mm`: one duty for each sample. -/
def State.scaledBy (s : State) (mm : F64 × F64) : State :=
  { s with
    lut := s.lut.writeList 0 ((List.range s.len.toNat).map fun i =>
      dutyOf s.cfg.shiftForm s.maxBright s.dynRange mm (s.sample.read i))
    lutValid := true, life := .scaled }

theorem State.scaledBy_lut_read {mm : F64 × F64} (hwf : Mem.wf s.lut = true) (i : Nat) : (s.scaledBy mm).lut.read i =
    if i < s.len.toNat then dutyOf s.cfg.shiftForm s.maxBright s.dynRange mm (s.sample.read i) else s.lut.read i :=
  Mem.read_writeList_range hwf _ _ i

/-- A LUT made of the duties of the samples is the one of `State.scaledBy`. -/
theorem scaleSamples_of_duties {mm : F64 × F64} (hws : w :: ws = (List.range s.len.toNat).map s.sample.read)
    (hfinite : firstNonfinite (w :: ws) = none) (h : lutOf s.cfg.shiftForm s.maxBright s.dynRange w ws =
      some ((w :: ws).map (dutyOf s.cfg.shiftForm s.maxBright s.dynRange mm))) :
    scaleSamples w ws s = s.scaledBy mm := by
  rw [scaleSamples_of_lutOf hfinite h, hws, List.map_map]
  rfl

/-- A scaler step that ends in SCALED has passed every check, and stores the duties of its samples. -/
theorem exec_scalerStep_scaled {t : State} (h : exec .scalerStep s = .next t) (hs : s.life = .scaling)
    (ht : t.life = .scaled) : cfgOk s.maxBright = true ∧ cfgOk s.dynRange = true ∧
      ∃ mm : F64 × F64, mm.1.units ≤ mm.2.units ∧ t = s.scaledBy mm := by
  have hexec : exec .scalerStep s = execScalerStep s := rfl
  rw [hexec] at h
  rcases execScalerStep_cases s with
    ⟨hne, -⟩ | ⟨-, -, heq⟩ | ⟨-, -, heq⟩ | ⟨-, -, heq⟩ | ⟨w, ws, -, hm, hd, -, hws, heq⟩
  · exact absurd hs hne
  all_goals rw [heq] at h; cases h
  · cases ht
  · refine ⟨hm, hd, ?_⟩
    rcases scaleSamples_cases w ws s with ⟨i, -, heq⟩ | ⟨-, -, heq⟩ | ⟨ds, hfinite, hlut, -⟩
    · rw [heq] at ht; cases ht
    · rw [heq] at ht; cases ht
    · obtain ⟨mm, hextremes, rfl⟩ := exists_extremes_of_lutOf hlut
      obtain ⟨hmin, -, hbounds⟩ := hextremes
      exact ⟨mm, (hbounds _ hmin).2, scaleSamples_of_duties hws hfinite hlut⟩

/-! ### Two runs (R105) -/

/-- `s'` has in it everything of `s` that the scaler step reads. -/
structure SameScalerInput (s s' : State) : Prop where
  cfg : s'.cfg = s.cfg
  len : s'.len = s.len
  maxBright : s'.maxBright = s.maxBright
  dynRange : s'.dynRange = s.dynRange
  sample : ∀ i < s.len.toNat, s'.sample.read i = s.sample.read i

/-- `t` and `t'` are alike in what the scaler step decides for a series of `n` samples. -/
def SameOutcome (n : Nat) (t t' : State) : Prop :=
  t'.life = t.life ∧ (t.life = .scaled → ∀ i < n, t'.lut.read i = t.lut.read i) ∧
  (t.life = .fatal → t'.errCode = t.errCode ∧ t'.errInfo = t.errInfo)

theorem sameOutcome_enterFatal (n : Nat) (c : Cause) (info : Word) (s s' : State) :
    SameOutcome n (enterFatal c info s) (enterFatal c info s') :=
  ⟨rfl, nofun, fun _ => ⟨rfl, rfl⟩⟩

variable {s' : State}

theorem SameScalerInput.series (h : SameScalerInput s s') :
    (List.range s'.len.toNat).map s'.sample.read = (List.range s.len.toNat).map s.sample.read := by
  rw [h.len]
  exact List.map_congr_left fun i hi => h.sample i (List.mem_range.1 hi)

theorem SameScalerInput.scaledBy {mm : F64 × F64} (h : SameScalerInput s s') (hwf : Mem.wf s.lut = true)
    (hwf' : Mem.wf s'.lut = true) : SameOutcome s.len.toNat (s.scaledBy mm) (s'.scaledBy mm) := by
  refine ⟨rfl, fun _ i hi => ?_, nofun⟩
  rw [State.scaledBy_lut_read hwf, State.scaledBy_lut_read hwf', h.cfg, h.len, h.maxBright, h.dynRange, if_pos hi,
    if_pos hi, h.sample i hi]

/-- On the same samples the same check stops both runs, or both store the same duties. -/
theorem SameScalerInput.scaleSamples (h : SameScalerInput s s') (hwf : Mem.wf s.lut = true)
    (hwf' : Mem.wf s'.lut = true) (hws : w :: ws = (List.range s.len.toNat).map s.sample.read) :
    SameOutcome s.len.toNat (scaleSamples w ws s) (scaleSamples w ws s') := by
  rcases scaleSamples_cases w ws s with ⟨i, hfirst, heq⟩ | ⟨hfinite, hnone, heq⟩ | ⟨ds, hfinite, hlut, -⟩
  · rw [heq, scaleSamples_of_nonfinite hfirst]
    exact sameOutcome_enterFatal _ _ _ s s'
  · rw [heq, scaleSamples_of_degenerate hfinite (by rwa [h.cfg, h.maxBright, h.dynRange]), h.len]
    exact sameOutcome_enterFatal _ _ _ s s'
  · obtain ⟨mm, -, rfl⟩ := exists_extremes_of_lutOf hlut
    rw [scaleSamples_of_duties hws hfinite hlut,
      scaleSamples_of_duties (hws.trans h.series.symm) hfinite (by rwa [h.cfg, h.maxBright, h.dynRange])]
    exact h.scaledBy hwf hwf'

/-- The other run meets the same configuration check, and then the same samples. -/
theorem SameScalerInput.exec_scalerStep {t t' : State} (h : SameScalerInput s s') (hwf : Mem.wf s.lut = true)
    (hwf' : Mem.wf s'.lut = true) (hs : s.life = .scaling) (hs' : s'.life = .scaling)
    (ht : exec .scalerStep s = .next t) (ht' : exec .scalerStep s' = .next t') : SameOutcome s.len.toNat t t' := by
  have hexec : exec .scalerStep s = execScalerStep s := rfl
  rw [hexec] at ht
  rcases execScalerStep_cases s with
    ⟨hne, -⟩ | ⟨-, hbad, heq⟩ | ⟨-, -, heq⟩ | ⟨-, -, heq⟩ | ⟨w, ws, -, hm, hd, hcap, hws, heq⟩
  · exact absurd hs hne
  all_goals rw [heq] at ht; cases ht
  · rw [exec_scalerStep_of_cfgBad hs' (by rwa [h.maxBright, h.dynRange]), h.maxBright, h.dynRange] at ht'
    cases ht'
    exact sameOutcome_enterFatal _ _ _ s s'
  · rw [exec_scalerStep_of_cfgOk hs' (h.maxBright ▸ hm) (h.dynRange ▸ hd) (by rwa [h.len, h.cfg])
      (hws.trans h.series.symm)] at ht'
    cases ht'
    exact h.scaleSamples hwf hwf' hws

end Sys2Proof.Machine

namespace Sys2Proof.Proofs

open Sys2Proof Sys2Proof.Machine

/-- Settles O28: the extremes of the series are `mn` and `mx`, so its LUT holds the duties they give. -/
theorem scalerBuildsTheLut : Obligations.ScalerBuildsTheLut := by
  intro s mn mx hlife hm hd hcap hwf hfinite hmin hmax hbounds hne mb dr maxD minD scale shift
  obtain ⟨i, hi, -⟩ := id hmin
  obtain ⟨w, ws, hws⟩ := exists_samples_cons (Nat.one_le_of_lt hi)
  have hextremes : IsExtremes (mn, mx) ((w :: ws).map F64.ofBin32) := by
    rw [hws]
    simpa [IsExtremes] using ⟨hmin, hmax, hbounds⟩
  have hall : firstNonfinite (w :: ws) = none := firstNonfinite_eq_none.2 (hws ▸ forall_mem_samples.2 hfinite)
  have hstep : exec .scalerStep s = .next (s.scaledBy (mn, mx)) := by
    rw [exec_scalerStep_of_cfgOk hlife hm hd hcap hws,
      scaleSamples_of_duties hws hall (lutOf_eq_some hextremes hne.symm)]
  refine ⟨_, hstep, rfl, fun j hj => ?_, fun j hj => ?_⟩
  · rw [State.scaledBy_lut_read hwf, if_pos hj, dutyOf, clampDuty_toNat]
    unfold shift
    cases s.cfg.shiftForm <;> rfl
  · rw [State.scaledBy_lut_read hwf, if_neg hj.not_gt]

/-- Settles O29: each check by the one before it having passed. -/
theorem scalerFatalChecksInOrder : Obligations.ScalerFatalChecksInOrder := by
  intro s hlife hlen hcap fatal
  have hbad (h : ¬(cfgOk s.maxBright = true ∧ cfgOk s.dynRange = true)) :
      exec .scalerStep s = .next (fatal 5 (cfgBad s.maxBright s.dynRange)) := exec_scalerStep_of_cfgBad hlife h
  obtain ⟨w, ws, hws⟩ := exists_samples_cons hlen
  refine ⟨fun hm hd => ?maxBright, fun hm hd => ?dynRange, fun hm hd => ?both,
    fun hm hd => ⟨fun i hi hinf hbefore => ?nonfinite, fun hfinite hequal => ?degenerate⟩⟩
  case maxBright | dynRange | both =>
    rw [hbad (by simp [hm, hd]), cfgBad, hm, hd]
    rfl
  case nonfinite =>
    have hfirst : firstNonfinite (w :: ws) = some i := by
      rw [hws, firstNonfinite_eq_some]
      exact ⟨by simpa using hi, by simpa using hinf, by simpa using hbefore⟩
    rw [exec_scalerStep_of_cfgOk hlife hm hd hcap hws, scaleSamples_of_nonfinite hfirst]
    rfl
  case degenerate =>
    have hall : firstNonfinite (w :: ws) = none := firstNonfinite_eq_none.2 (hws ▸ forall_mem_samples.2 hfinite)
    have hconst : ∀ x ∈ w :: ws, F64.ofBin32 x = F64.ofBin32 (s.sample.read 0) := hws ▸ forall_mem_samples.2 hequal
    have hnone : lutOf s.cfg.shiftForm s.maxBright s.dynRange w ws = none :=
      lutOf_eq_none.2 fun x hx => (hconst x (List.mem_cons_of_mem _ hx)).trans (hconst w List.mem_cons_self).symm
    rw [exec_scalerStep_of_cfgOk hlife hm hd hcap hws, scaleSamples_of_degenerate hall hnone]
    rfl

/-- Settles O30: both entries are duties for the same extremes, and `dutyOf_mono`. -/
theorem lutPreservesSampleOrder : Obligations.LutPreservesSampleOrder := by
  intro s t hstep hs ht hwf i j hi hj hle
  obtain ⟨hm, hd, mm, hmm, rfl⟩ := exec_scalerStep_scaled hstep hs ht
  rw [State.scaledBy_lut_read hwf, State.scaledBy_lut_read hwf, if_pos hi, if_pos hj]
  exact dutyOf_mono s.cfg.shiftForm hm hd hmm hle

/-- Settles O32: the two states agree in all that the step reads. -/
theorem scalerIsAPureFunction : Obligations.ScalerIsAPureFunction :=
  fun _ _ _ _ hs hs' hcfg hlen hmaxBright hdynRange hsample hwf hwf' ht ht' =>
    SameScalerInput.exec_scalerStep ⟨hcfg, hlen, hmaxBright, hdynRange, hsample⟩ hwf hwf' hs hs' ht ht'

end Sys2Proof.Proofs
end

section
/-! PROOFS. R118 to R121: START, the tick step, and what the untimed model has for the clock. -/

namespace Sys2Proof.Machine

variable {s : State}

theorem exec_start_of_ne_scaled (hlife : s.life ≠ .scaled) : exec .start s = .next (respond 0 (flagCmdErr s)) :=
  congrArg completeWrite (if_neg (by simpa using hlife))

/-- START where it is legal, on a memory that has an entry 0 (R118). -/
theorem exec_start_of_scaled (hlife : s.life = .scaled) (hcap : 1 ≤ s.cfg.dataCap) :
    exec .start s = .next (respond 0 (checkDriver 0 (writeDuty (s.lut.read 0)
      { s with life := .running, timeIndex := 0, tb := 0, tickPend := false, cp := 0 }))) := by
  have hexec : exec .start s = completeWrite (startPlayback s) := congrArg completeWrite (if_pos (beq_iff_eq.2 hlife))
  rcases startPlayback_cases s with ⟨-, heq⟩ | ⟨hzero, -⟩
  · rw [hexec, heq, completeWrite_next]
  · omega

/-- A tick that is due, on a LUT that has all entries below LEN (R119). -/
theorem exec_tickStep_of_pending (hlife : s.life = .running) (hpend : s.tickPend = true) (hlen : 1 ≤ s.len.toNat)
    (hcap : s.len.toNat ≤ s.cfg.dataCap) :
    exec .tickStep s = .next (checkDriver 0 (writeDuty (s.lut.read s.nextIndex)
      { s with tickPend := false, timeIndex := BitVec.ofNat 32 s.nextIndex })) := by
  rcases execTickStep_cases s with ⟨hidle, -⟩ | ⟨-, -, -, -, heq⟩ | ⟨-, -, hempty | hbeyond, -⟩
  · exact absurd ⟨hlife, hpend⟩ hidle
  · exact heq
  · simp [hempty] at hlen
  · exact absurd ((Nat.mod_lt _ hlen).trans_le hcap) hbeyond.not_gt

theorem exec_tickDue_of_running (hlife : s.life = .running) : exec .tickDue s = .next { s with tickPend := true } :=
  congrArg Host.Outcome.next (if_pos hlife)

theorem exec_pwmReload (s : State) : exec .pwmReload s = .next { s with active0 := s.pwm0Duty, active1 := s.pwm1Duty } :=
  rfl

end Sys2Proof.Machine

namespace Sys2Proof.Proofs

open Sys2Proof Sys2Proof.Machine Sys2Proof.Laws

/-- Settles O33: the gate of START, and the driver check on what it writes. -/
theorem startCommand : Obligations.StartCommand := by
  refine ⟨decode_fullWrite .cmd 3, fun s hcap => ?_⟩
  by_cases hlife : s.life = .scaled
  · rw [exec_start_of_scaled hlife hcap, checkDriver_eq, if_neg (not_not.2 hlife)]
    rfl
  · rw [exec_start_of_ne_scaled hlife, if_pos hlife]
    rfl

/-- Settles O34: the driver check on what a tick that is due writes. -/
theorem tickStep : Obligations.TickStep := by
  intro s hlife hpend hlen hcap i
  rw [exec_tickStep_of_pending hlife hpend hlen hcap, checkDriver_eq, ← hlife]
  rfl

/-- Settles O35. -/
theorem tickDueAndPwmReload : Obligations.TickDueAndPwmReload :=
  fun s => ⟨exec_tickDue_of_running, exec_pwmReload s⟩

end Sys2Proof.Proofs
end

section
/-! PROOFS. R120, R121, R130: the clock cycle as one record, the cycles up to a tick, and the untimed steps that stand for a
cycle. -/

namespace Sys2Proof.Machine

variable {s u : State}

/-! ### One cycle -/

/-- A tick falls due in this clock cycle (R120). -/
abbrev State.TickFallsDue (s : State) : Prop := s.life = .running ∧ s.tb.toNat = s.cfg.tickCycles - 1

/-- The PWM period ends in this clock cycle (R121). -/
abbrev State.PeriodEnds (s : State) : Prop := s.presc.toNat = s.cfg.pwmPrescale - 1 ∧ s.pwmCnt = 65534

/-- The last value of a round as a case of its own, before the cycles that count. -/
theorem ite_ite_eq_ite_and {α : Type} {p q : Prop} [Decidable p] [Decidable q] (a b c : α) :
    (if p then if q then a else b else c) = if p ∧ q then a else if p then b else c := by
  by_cases hp : p <;> by_cases hq : q <;> simp [hp, hq]

/-- The three timers write fields apart, and none reads what another writes (R120, R121, R130). -/
theorem clockCycle_eq (s : State) : clockCycle s = { s with
    tb := if s.TickFallsDue then 0 else if s.life = .running then s.tb + 1 else s.tb,
    tickPend := if s.TickFallsDue then true else s.tickPend,
    cp := if s.life = .running then (if s.cp ≠ 0 then s.cp - 1 else if s.linePend then s.cp
      else BitVec.ofNat 32 s.cfg.cmdIdleCycles) else s.cp,
    presc := if s.presc.toNat = s.cfg.pwmPrescale - 1 then 0 else s.presc + 1,
    pwmCnt := if s.PeriodEnds then 0 else if s.presc.toNat = s.cfg.pwmPrescale - 1 then s.pwmCnt + 1 else s.pwmCnt,
    active0 := if s.PeriodEnds then s.pwm0Duty else s.active0,
    active1 := if s.PeriodEnds then s.pwm1Duty else s.active1,
    busReady := false } := by
  rw [clockCycle, clockPwm_eq, clockPoll_eq, clockTimebase_eq]
  simp only [ite_ite_eq_ite_and]

/-! ### The cycles up to a tick (R120) -/

/-- `u` is RUNNING on the parameters of `s`, `n` cycles after the timebase started, and no tick has fallen due. -/
structure CountedFrom (s : State) (n : Nat) (u : State) : Prop where
  life : u.life = .running
  cfg : u.cfg = s.cfg
  tb : u.tb.toNat = n
  tickPend : u.tickPend = false

/-- Before its last value the timebase counts a cycle. -/
theorem CountedFrom.succ {n : Nat} (h : CountedFrom s n u) (hn : n + 1 < s.cfg.tickCycles)
    (hmax : s.cfg.tickCycles < 2 ^ 32) : CountedFrom s (n + 1) (clockCycle u) := by
  have hnotDue : ¬u.TickFallsDue := by
    rintro ⟨-, hlast⟩
    rw [h.tb, h.cfg] at hlast
    omega
  have hsucc : (u.tb + 1).toNat = n + 1 := by
    rw [BitVec.toNat_add, h.tb]
    exact Nat.mod_eq_of_lt (hn.trans hmax)
  rw [clockCycle_eq, if_neg hnotDue, if_neg hnotDue, if_pos h.life]
  exact ⟨h.life, h.cfg, hsucc, h.tickPend⟩

theorem countedFrom_iterate_clockCycle {n : Nat} (h : CountedFrom s 0 s) (hn : n < s.cfg.tickCycles)
    (hmax : s.cfg.tickCycles < 2 ^ 32) : CountedFrom s n (clockCycle^[n] s) := by
  induction n with
  | zero => exact h
  | succ n ih =>
    rw [Function.iterate_succ_apply']
    exact (ih (n.lt_succ_self.trans hn)).succ hn hmax

/-! ### The PWM output (R121) -/

theorem length_filter_range_lt (n d : Nat) : ((List.range n).filter (· < d)).length = min n d := by
  induction n with
  | zero => simp
  | succ n ih =>
    rw [List.range_succ, List.filter_append, List.length_append, ih]
    by_cases hn : n < d <;> simp [hn] <;> omega

/-- A comparison with the period counter is true for `d` of its values: the 16-bit counter shows each of them as it is. -/
theorem length_filter_pwmCnt_lt (d : Duty) :
    ((List.range 65535).filter fun c => decide ((BitVec.ofNat 16 c).toNat < d.toNat)).length = d.toNat := by
  have hcount : (List.range 65535).filter (fun c => decide ((BitVec.ofNat 16 c).toNat < d.toNat)) =
      (List.range 65535).filter (· < d.toNat) := List.filter_congr fun c hc => by
    rw [BitVec.toNat_ofNat, Nat.mod_eq_of_lt (by have := List.mem_range.1 hc; omega)]
  have hd : d.toNat ≤ 65535 := Nat.le_of_lt_succ d.isLt
  rw [hcount, length_filter_range_lt, Nat.min_eq_right hd]

/-! ### The untimed steps of a cycle (R120, R121) -/

/-- TICK_DUE for a cycle in which a tick falls due. -/
theorem runInstrs_tickDue_of_cycle (s : State) : runInstrs (if s.TickFallsDue then [.tickDue] else []) s =
    .next { s with tickPend := if s.TickFallsDue then true else s.tickPend } := by
  by_cases hdue : s.TickFallsDue
  · rw [if_pos hdue, if_pos hdue, runInstrs_cons (exec_tickDue_of_running hdue.1)]
    rfl
  · rw [if_neg hdue, if_neg hdue]
    rfl

/-- PWM_RELOAD for a cycle that ends a period. -/
theorem runInstrs_pwmReload_of_cycle (s : State) : runInstrs (if s.PeriodEnds then [.pwmReload] else []) s =
    .next { s with active0 := if s.PeriodEnds then s.pwm0Duty else s.active0,
                   active1 := if s.PeriodEnds then s.pwm1Duty else s.active1 } := by
  by_cases hend : s.PeriodEnds
  · rw [if_pos hend, if_pos hend, if_pos hend]
    rfl
  · rw [if_neg hend, if_neg hend, if_neg hend]
    rfl

end Sys2Proof.Machine

namespace Sys2Proof.Proofs

open Sys2Proof Sys2Proof.Machine

/-- Settles O37: the timebase, the poll timer and the PWM generator, one after the other. -/
theorem clockCycle : Obligations.ClockCycle := clockCycle_eq

/-- Settles O38, by induction on the cycles before the last; in the last one the tick falls due. -/
theorem tickFallsDueAfterTickCycles : Obligations.TickFallsDueAfterTickCycles := by
  intro s hvalid hlife htb hpend
  obtain ⟨-, -, -, -, ⟨hpos, hmax⟩, -⟩ := hvalid
  have hcounted {n : Nat} (hn : n < s.cfg.tickCycles) : CountedFrom s n (Machine.clockCycle^[n] s) :=
    countedFrom_iterate_clockCycle ⟨hlife, rfl, by simp [htb], hpend⟩ hn hmax
  have hlast := hcounted (Nat.sub_one_lt_of_lt hpos)
  have hdue : (Machine.clockCycle^[s.cfg.tickCycles - 1] s).TickFallsDue := ⟨hlast.life, by rw [hlast.tb, hlast.cfg]⟩
  refine ⟨fun n hn => ⟨(hcounted hn).tb, (hcounted hn).tickPend⟩, ?_⟩
  rw [← Nat.sub_one_add_one_eq_of_pos hpos, Function.iterate_succ_apply', clockCycle_eq]
  exact ⟨if_pos hdue, if_pos hdue⟩

/-- Settles O40: the counter's values are counted once, for either channel's active duty. -/
theorem pwmHighTimeIsTheDuty : Obligations.PwmHighTimeIsTheDuty :=
  fun s => ⟨length_filter_pwmCnt_lt s.active0, length_filter_pwmCnt_lt s.active1⟩

/-- Settles O41: TICK_DUE where a tick falls due in the cycle, then PWM_RELOAD where the cycle ends a period. -/
theorem timedCycleIsUntimedSteps : Obligations.TimedCycleIsUntimedSteps := by
  intro s
  refine ⟨(if s.TickFallsDue then [.tickDue] else []) ++ (if s.PeriodEnds then [.pwmReload] else []), _, ?steps,
    (runInstrs_append (runInstrs_tickDue_of_cycle s)).trans (runInstrs_pwmReload_of_cycle _), ?same⟩
  case steps => split_ifs <;> simp
  case same => rw [clockCycle_eq]

end Sys2Proof.Proofs
end

section
/-! PROOFS. R71, R161: a scheduled turn, and the operation of its agent. -/

namespace Sys2Proof.Machine

variable {s : State} {t : Turn} {ts : List Turn}

theorem nextTurn_of_schedule (h : s.schedule = t :: ts) : s.nextTurn = t := by
  rw [State.nextTurn, h]

theorem takeTurn_of_schedule (h : s.schedule = t :: ts) : s.takeTurn = { s with schedule := ts, inp := t.inputs } := by
  rw [State.takeTurn, h]

/-- A scheduled turn that brings an operation runs it with the turn used up and its levels on the ports. -/
theorem step_of_scheduled_run {i : Instr} (h : s.schedule = t :: ts) (hfetch : fetch t.agent t.inputs = .run i) :
    step s = exec i { s with schedule := ts, inp := t.inputs } := by
  rw [step_of_fetch_run (by rw [nextTurn_of_schedule h, hfetch]), takeTurn_of_schedule h]

theorem step_of_scheduled_idle (h : s.schedule = t :: ts) (hfetch : fetch t.agent t.inputs = .idle) :
    step s = .next { s with schedule := ts, inp := t.inputs } := by
  rw [step_of_fetch_idle (by rw [nextTurn_of_schedule h, hfetch]), takeTurn_of_schedule h]

theorem step_of_scheduled_clock (h : s.schedule = t :: ts) (hfetch : fetch t.agent t.inputs = .clock) :
    step s = .next (clockCycle { s with schedule := ts, inp := t.inputs }) := by
  rw [step, nextTurn_of_schedule h, hfetch, takeTurn_of_schedule h]

/-- R173: `rst` makes a turn of any agent a reset (log 13). -/
theorem fetch_of_rst (a : Agent) {p : Inputs} (hrst : p.rst = true) : fetch a p = .run .reset := if_pos hrst

/-- What each agent but the host and the scaler brings without `rst` (R161). -/
theorem fetch_of_not_rst {p : Inputs} (hrst : p.rst = false) :
    fetch .tickDue p = .run .tickDue ∧ fetch .tick p = .run .tickStep ∧ fetch .dispatch p = .run .dispatch ∧
    (p.rxValid = true → fetch .rxenv p = .run (.rxAccept p.rxData)) ∧ (p.rxValid = false → fetch .rxenv p = .idle) ∧
    fetch .txenv p = .run .txDepart ∧ fetch .pwmgen p = .run .pwmReload ∧ fetch .clk p = .clock := by
  simp +contextual [fetch, hrst]

end Sys2Proof.Machine

namespace Sys2Proof.Proofs

open Sys2Proof Sys2Proof.Machine

/-- Settles O7: the step of a scheduled turn is what its agent brings. -/
theorem stepRunsTheTurnsAgent : Obligations.StepRunsTheTurnsAgent := by
  intro s t ts hsched u
  have hrun {a : Agent} {i : Instr} (hfetch : fetch a t.inputs = .run i) (ha : t.agent = a) : step s = exec i u :=
    step_of_scheduled_run hsched (ha ▸ hfetch)
  refine ⟨fun hrst => hrun (fetch_of_rst _ hrst) rfl, fun hrst => ?_⟩
  obtain ⟨htickDue, htick, hdispatch, hbyte, hnoByte, htxenv, hpwmgen, hclk⟩ := fetch_of_not_rst hrst
  exact ⟨hrun (fetch_scaler hrst), hrun htickDue, hrun htick, hrun hdispatch, fun ha hvalid => hrun (hbyte hvalid) ha,
    fun ha hvalid => step_of_scheduled_idle hsched (ha ▸ hnoByte hvalid), hrun htxenv, hrun hpwmgen,
    fun ha => step_of_scheduled_clock hsched (ha ▸ hclk)⟩

end Sys2Proof.Proofs
end

section
/-! PROOFS. R70, R123, R132: an operation writes the state of one owner at most, and which owner that is. -/

namespace Sys2Proof.Machine

/-- Who writes an output or a memory: the command task the relay, the player the duties and their counters, the loader the
samples, the scaler the LUT (R70). -/
inductive Owner
  | commandTask | player | loader | scaler

/-- The owner for which an operation, reset apart, may write in `s`: LDB in LOAD only (R149), LINE_OTHER for none (R129). -/
def State.writerOf (s : State) : Instr → Option Owner
  | .dispatch | .lineOn | .lineOff => some .commandTask
  | .start | .tickStep => some .player
  | .ldb _ _ => if s.life = .load then some .loader else none
  | .scalerStep => some .scaler
  | _ => none

/-- From `s` to `t` no owner but `o` has written, and the parameters are the same. -/
def KeepsBut (o : Option Owner) (s t : State) : Prop :=
  (o ≠ some .commandTask → t.relay = s.relay) ∧
  (o ≠ some .player → t.pwm0Duty = s.pwm0Duty ∧ t.pwm1Duty = s.pwm1Duty ∧ t.timeIndex = s.timeIndex ∧
    t.tickCount = s.tickCount) ∧
  (o ≠ some .loader → t.sample = s.sample ∧ t.pos = s.pos ∧ t.len = s.len) ∧
  (o ≠ some .scaler → t.lut = s.lut ∧ t.lutValid = s.lutValid) ∧ t.cfg = s.cfg

variable {o : Option Owner} {s t : State}

/-! ### One update of each owner -/

theorem keepsBut_refl (o : Option Owner) (s : State) : KeepsBut o s s :=
  ⟨fun _ => rfl, fun _ => ⟨rfl, rfl, rfl, rfl⟩, fun _ => ⟨rfl, rfl, rfl⟩, fun _ => ⟨rfl, rfl⟩, rfl⟩

theorem keepsBut_writeCommandTask (r : Bool) (s : State) : KeepsBut (some .commandTask) s { s with relay := r } :=
  ⟨fun h => absurd rfl h, fun _ => ⟨rfl, rfl, rfl, rfl⟩, fun _ => ⟨rfl, rfl, rfl⟩, fun _ => ⟨rfl, rfl⟩, rfl⟩

theorem keepsBut_writePlayer (d : Duty) (i : Word) (s : State) :
    KeepsBut (some .player) s (writeDuty d { s with timeIndex := i }) :=
  ⟨fun _ => rfl, fun h => absurd rfl h, fun _ => ⟨rfl, rfl, rfl⟩, fun _ => ⟨rfl, rfl⟩, rfl⟩

theorem keepsBut_writeLoader (m : Mem 32) (p : BitVec 36) (n : Word) (s : State) :
    KeepsBut (some .loader) s { s with sample := m, pos := p, len := n } :=
  ⟨fun _ => rfl, fun _ => ⟨rfl, rfl, rfl, rfl⟩, fun h => absurd rfl h, fun _ => ⟨rfl, rfl⟩, rfl⟩

theorem keepsBut_writeScaler (m : Mem 16) (v : Bool) (s : State) :
    KeepsBut (some .scaler) s { s with lut := m, lutValid := v } :=
  ⟨fun _ => rfl, fun _ => ⟨rfl, rfl, rfl, rfl⟩, fun _ => ⟨rfl, rfl, rfl⟩, fun h => absurd rfl h, rfl⟩

/-- A driver fault writes nothing that has an owner (R156). -/
theorem KeepsBut.checkDriver (info : Word) (h : KeepsBut o s t) : KeepsBut o s (checkDriver info t) := by
  rw [checkDriver_eq]
  exact h

/-! ### Each operation -/

theorem gatedWrite_keepsBut {legal : Bool} {effect : State → Result} (heffect : NextMeets (KeepsBut o s) (effect s)) :
    NextMeets (KeepsBut o s) (completeWrite (gated legal effect s)) :=
  nextMeets_gatedWrite (fun _ hu => hu) (keepsBut_refl o s) fun _ => heffect

theorem acceptByte_keepsBut (b : Byte) (s : State) : NextMeets (KeepsBut (some .loader) s) (acceptByte b s) := by
  unfold acceptByte
  split
  · refine nextMeets_next.2 ?_
    by_cases hthree : s.pos.toNat = 3
    · rw [headerByte_of_eq_three b hthree]
      exact keepsBut_writeLoader _ _ _ s
    · rw [headerByte_of_ne_three b hthree]
      exact keepsBut_writeLoader _ _ _ s
  · rcases payloadByte_cases (b := b) (s := s) rfl with
      ⟨-, -, -, heq⟩ | ⟨-, -, -, heq⟩ | ⟨-, -, heq⟩ | ⟨-, -, heq⟩ | ⟨-, -, heq⟩ <;> rw [heq]
    case inr.inl => exact nextMeets_fault _
    all_goals exact nextMeets_next.2 (keepsBut_writeLoader _ _ _ s)

theorem exec_ldb_keepsBut (b : Byte) (ig : BitVec 24) (s : State) :
    NextMeets (KeepsBut (s.writerOf (.ldb b ig)) s) (exec (.ldb b ig) s) := by
  unfold State.writerOf
  by_cases hlife : s.life = .load
  · rw [if_pos hlife]
    exact gatedWrite_keepsBut (acceptByte_keepsBut b s)
  · rw [if_neg hlife, exec_ldb_of_ne_load b ig hlife]
    exact nextMeets_next.2 (keepsBut_refl none s)

theorem commit_keepsBut (o : Option Owner) (s : State) : KeepsBut o s (commit s) := by
  rcases commit_cases s with ⟨c, heq⟩ | ⟨-, heq⟩ <;> rw [heq]
  · exact keepsBut_refl o s
  · exact keepsBut_refl o s

theorem startPlayback_keepsBut (s : State) : NextMeets (KeepsBut (some .player) s) (startPlayback s) := by
  rcases startPlayback_cases s with ⟨-, heq⟩ | ⟨-, heq⟩ <;> rw [heq]
  · exact nextMeets_next.2 (KeepsBut.checkDriver 0 (keepsBut_writePlayer _ 0 s))
  · exact nextMeets_fault _

theorem execTickStep_keepsBut (s : State) : NextMeets (KeepsBut (some .player) s) (execTickStep s) := by
  rcases execTickStep_cases s with ⟨-, heq⟩ | ⟨-, -, -, -, heq⟩ | ⟨-, -, -, f, heq⟩ <;> rw [heq]
  · exact nextMeets_next.2 (keepsBut_refl _ s)
  · exact nextMeets_next.2 (KeepsBut.checkDriver 0 (keepsBut_writePlayer _ _ s))
  · exact nextMeets_fault _

theorem execScalerStep_keepsBut (s : State) : NextMeets (KeepsBut (some .scaler) s) (execScalerStep s) := by
  rcases execScalerStep_cases s with
    ⟨-, heq⟩ | ⟨-, -, heq⟩ | ⟨-, -, heq⟩ | ⟨-, -, heq⟩ | ⟨w, ws, -, -, -, -, -, heq⟩ <;> rw [heq]
  · exact nextMeets_next.2 (keepsBut_refl _ s)
  · exact nextMeets_next.2 (keepsBut_refl _ s)
  · exact nextMeets_fault _
  · exact nextMeets_fault _
  · refine nextMeets_next.2 ?_
    rcases scaleSamples_cases w ws s with ⟨i, -, heq⟩ | ⟨-, -, heq⟩ | ⟨ds, -, -, heq⟩ <;> rw [heq]
    · exact keepsBut_refl _ s
    · exact keepsBut_refl _ s
    · exact keepsBut_writeScaler _ true s

theorem execRxAccept_keepsBut (b : Byte) (s : State) : NextMeets (KeepsBut o s) (execRxAccept b s) := by
  rcases execRxAccept_cases b s with ⟨-, heq⟩ | ⟨-, -, ⟨-, heq⟩ | ⟨-, -, heq⟩ | ⟨-, -, heq⟩⟩ <;> rw [heq] <;>
    exact nextMeets_next.2 (keepsBut_refl o s)

theorem dispatchAs_keepsBut (c : Command) (text : List Byte) (ovf : Bool) (s : State) :
    KeepsBut (some .commandTask) s (dispatchAs c text ovf s) := by
  rcases dispatchAs_cases c text ovf s with ⟨-, heq⟩ | ⟨-, -, -, heq⟩ <;> rw [heq]
  · exact keepsBut_refl _ s
  · obtain ⟨r, heq | ⟨-, -, heq⟩⟩ := applyCommand_cases c (finishLine c text ovf s) <;> rw [heq] <;>
      exact keepsBut_writeCommandTask r s

/-- A line that is no command leaves the relay too (R129). -/
theorem dispatchAs_unrecognized_keepsBut (text : List Byte) (ovf : Bool) (s : State) :
    KeepsBut o s (dispatchAs .unrecognized text ovf s) := by
  rcases dispatchAs_cases .unrecognized text ovf s with ⟨-, heq⟩ | ⟨-, -, -, heq⟩ <;> rw [heq] <;>
    exact keepsBut_refl o s

theorem execDispatch_keepsBut (s : State) : NextMeets (KeepsBut (some .commandTask) s) (execDispatch s) := by
  rcases execDispatch_cases s with ⟨-, heq⟩ | ⟨-, -, -, heq⟩ | ⟨-, -, -, c, t, -, heq⟩ <;> rw [heq]
  · exact nextMeets_next.2 (keepsBut_refl _ s)
  · exact nextMeets_fault _
  · exact nextMeets_next.2 (dispatchAs_keepsBut c t s.lineOvf s)

/-- R70: an operation writes at most what the owner it writes for owns. -/
theorem exec_keepsBut (i : Instr) (hi : i ≠ .reset) (s : State) : NextMeets (KeepsBut (s.writerOf i) s) (exec i s) := by
  cases i with
  | busMisalignedW | busMisalignedR | busPartial | busUnmappedW | busUnmappedR | nop | wrRo | cmdIllegal | wrStatus
  | wrTblAddr | wrIrqEn | rd | rdWo | pwmReload => exact nextMeets_next.2 (keepsBut_refl none s)
  | rdLut => exact nextMeets_execRdLut fun _ => keepsBut_refl none s
  | rdSample => exact nextMeets_execRdSample fun _ => keepsBut_refl none s
  | wrMaxBright | wrDynRange | scale => exact gatedWrite_keepsBut (nextMeets_next.2 (keepsBut_refl none s))
  | ldb b ig => exact exec_ldb_keepsBut b ig s
  | loadCommit => exact gatedWrite_keepsBut (nextMeets_next.2 (commit_keepsBut none s))
  | start => exact gatedWrite_keepsBut (startPlayback_keepsBut s)
  | scalerStep => exact execScalerStep_keepsBut s
  | tickStep => exact execTickStep_keepsBut s
  | rxAccept b => exact execRxAccept_keepsBut b s
  | lineOn | lineOff => exact nextMeets_next.2 (dispatchAs_keepsBut _ _ _ s)
  | lineOther text ovf => exact nextMeets_next.2 (dispatchAs_unrecognized_keepsBut text ovf s)
  | dispatch => exact execDispatch_keepsBut s
  | tickDue | txDepart =>
    refine nextMeets_next.2 ?_
    split <;> exact keepsBut_refl none s
  | reset => exact absurd rfl hi

/-! ### The operations of each owner -/

variable {i : Instr}

/-- LDB writes for the loader or for nobody. -/
theorem writerOf_ldb {b : Byte} {ig : BitVec 24} {w : Owner} (h : s.writerOf (.ldb b ig) = some w) :
    s.life = .load ∧ w = .loader := by
  by_cases hlife : s.life = .load
  · exact ⟨hlife, Option.some.inj (h.symm.trans (if_pos hlife))⟩
  · cases h.symm.trans (if_neg hlife)

theorem eq_of_writerOf_commandTask (h : s.writerOf i = some .commandTask) :
    i = .dispatch ∨ i = .lineOn ∨ i = .lineOff := by
  cases i with
  | dispatch => exact .inl rfl
  | lineOn => exact .inr (.inl rfl)
  | lineOff => exact .inr (.inr rfl)
  | ldb => nomatch (writerOf_ldb h).2
  | _ => cases h

theorem eq_of_writerOf_player (h : s.writerOf i = some .player) : i = .start ∨ i = .tickStep := by
  cases i with
  | start => exact .inl rfl
  | tickStep => exact .inr rfl
  | ldb => nomatch (writerOf_ldb h).2
  | _ => cases h

theorem eq_of_writerOf_loader (h : s.writerOf i = some .loader) : (∃ b ig, i = .ldb b ig) ∧ s.life = .load := by
  cases i with
  | ldb b ig => exact ⟨⟨b, ig, rfl⟩, (writerOf_ldb h).1⟩
  | _ => cases h

theorem eq_of_writerOf_scaler (h : s.writerOf i = some .scaler) : i = .scalerStep := by
  cases i with
  | scalerStep => rfl
  | ldb => nomatch (writerOf_ldb h).2
  | _ => cases h

end Sys2Proof.Machine

namespace Sys2Proof.Proofs

open Sys2Proof Sys2Proof.Machine

/-- Settles O54: an operation that is none of an owner's leaves what the owner owns. -/
theorem ownershipByOperation : Obligations.OwnershipByOperation := by
  intro i s t ht hi
  obtain ⟨hrelay, hplayer, hloader, hscaler, hcfg⟩ := exec_keepsBut i hi s t ht
  refine ⟨fun hdispatch hon hoff => hrelay fun h => ?commandTask, fun hstart htick => hplayer fun h => ?player,
    fun hldb => hloader fun h => ?loader, fun hstep => hscaler fun h => hstep (eq_of_writerOf_scaler h), hcfg⟩
  case commandTask =>
    rcases eq_of_writerOf_commandTask h with rfl | rfl | rfl
    · exact hdispatch rfl
    · exact hon rfl
    · exact hoff rfl
  case player => exact (eq_of_writerOf_player h).elim hstart htick
  case loader =>
    obtain ⟨⟨b, ig, hi⟩, hlife⟩ := eq_of_writerOf_loader h
    exact hldb.elim (fun hne => hne b ig hi) fun hne => hne hlife

end Sys2Proof.Proofs
end

section
/-! PROOFS. R130: a waiting line is polled when the poll timer has run down. -/

namespace Sys2Proof.Machine

variable {s u : State}

/-- `u` is RUNNING with a line waiting, `n` cycles of the poll timer after `s`. -/
structure PolledFrom (s : State) (n : Nat) (u : State) : Prop where
  life : u.life = .running
  linePend : u.linePend = true
  cp : u.cp.toNat = s.cp.toNat - n

/-- While it is not 0 the poll timer counts a cycle down, and the line goes on waiting (R130). -/
theorem PolledFrom.succ {n : Nat} (h : PolledFrom s n u) (hn : n < s.cp.toNat) : PolledFrom s (n + 1) (clockCycle u) := by
  have hcp := h.cp
  have hne : u.cp ≠ 0 := by bv_omega
  have hpred : (u.cp - 1).toNat = s.cp.toNat - (n + 1) := by bv_omega
  rw [clockCycle_eq]
  refine ⟨h.life, h.linePend, ?_⟩
  rw [← hpred]
  exact congrArg BitVec.toNat ((if_pos h.life).trans (if_pos hne))

theorem polledFrom_iterate_clockCycle {n : Nat} (h : PolledFrom s 0 s) (hn : n ≤ s.cp.toNat) :
    PolledFrom s n (clockCycle^[n] s) := by
  induction n with
  | zero => exact h
  | succ n ih =>
    rw [Function.iterate_succ_apply']
    exact (ih (Nat.le_of_succ_le hn)).succ hn

/-- R130: the dispatch step is due when the timer has run down. -/
theorem PolledFrom.dispatchDue (h : PolledFrom s s.cp.toNat u) : u.dispatchDue = true := by
  have hzero : u.cp = 0#32 := BitVec.eq_of_toNat_eq (h.cp.trans (Nat.sub_self _))
  simp [State.dispatchDue, h.life, h.linePend, hzero]

end Sys2Proof.Machine

namespace Sys2Proof.Proofs

open Sys2Proof Sys2Proof.Machine

/-- Settles O39: the dispatch step is due after as many cycles as the poll timer shows. -/
theorem waitingLineIsPolledInTime : Obligations.WaitingLineIsPolledInTime := fun s hlife hpend hcp =>
  ⟨s.cp.toNat, hcp, (polledFrom_iterate_clockCycle ⟨hlife, hpend, rfl⟩ le_rfl).dispatchDue⟩

end Sys2Proof.Proofs
end

section
/-! PROOFS. R125 to R129, R131: the receiver, the rows of a complete line, and the echo queue. -/

namespace Sys2Proof.Machine

open Sys2Proof.Laws

variable {s : State}

/-! ### The receiver (R125) -/

theorem rxReady_iff : s.rxReady = true ↔ s.life = .running ∧ s.linePend = false := by
  simp [State.rxReady]

/-- LF completes the line. -/
theorem exec_rxAccept_lf (h : s.rxReady = true) : exec (.rxAccept lfByte) s = .next { s with linePend := true } :=
  congrArg Host.Outcome.next ((if_pos h).trans (if_pos rfl))

/-- A content byte is kept while the buffer has room. -/
theorem exec_rxAccept_of_room {b : Byte} (h : s.rxReady = true) (hb : b ≠ lfByte)
    (hroom : s.lineLen.toNat < s.cfg.lineMax) : exec (.rxAccept b) s =
      .next { s with lineBuf := Mem.write (w := 8) s.lineBuf s.lineLen.toNat b, lineLen := s.lineLen + 1 } :=
  congrArg Host.Outcome.next ((if_pos h).trans ((if_neg hb).trans (if_pos hroom)))

/-- A content byte beyond LINE_MAX marks the line overlong. -/
theorem exec_rxAccept_of_full {b : Byte} (h : s.rxReady = true) (hb : b ≠ lfByte)
    (hfull : ¬s.lineLen.toNat < s.cfg.lineMax) : exec (.rxAccept b) s = .next { s with lineOvf := true } :=
  congrArg Host.Outcome.next ((if_pos h).trans ((if_neg hb).trans (if_neg hfull)))

/-! ### The rows of a complete line (R126 to R129) -/

theorem decodeLine_of_strip_eq_on {kept : List Byte} (h : strip kept = onBytes) : decodeLine kept false = .lineOn := by
  rcases decodeLine_cases kept false with ⟨-, -, heq⟩ | ⟨-, hoff, -⟩ | ⟨hother, -⟩
  · exact heq
  · exact absurd (h.symm.trans hoff) (by decide)
  · exact absurd h (hother.resolve_left Bool.false_ne_true).1

theorem decodeLine_of_strip_eq_off {kept : List Byte} (h : strip kept = offBytes) : decodeLine kept false = .lineOff := by
  rcases decodeLine_cases kept false with ⟨-, hon, -⟩ | ⟨-, -, heq⟩ | ⟨hother, -⟩
  · exact absurd (hon.symm.trans h) (by decide)
  · exact heq
  · exact absurd h (hother.resolve_left Bool.false_ne_true).2

theorem decodeLine_of_other {kept : List Byte} {ovf : Bool}
    (h : ovf = true ∨ strip kept ≠ onBytes ∧ strip kept ≠ offBytes) :
    decodeLine kept ovf = .lineOther (strip kept) ovf := by
  rcases decodeLine_cases kept ovf with ⟨rfl, hon, -⟩ | ⟨rfl, hoff, -⟩ | ⟨-, heq⟩
  · exact absurd hon (h.resolve_left Bool.false_ne_true).1
  · exact absurd hoff (h.resolve_left Bool.false_ne_true).2
  · exact heq

/-- RELAY after a command, from what it was before (R127 to R129). -/
def relayAfter (c : Command) (r : Bool) : Bool :=
  match c with
  | .turnOn => true
  | .turnOff => false
  | .unrecognized => r

/-- The command writes the relay, and the driver fails on the write (R154). -/
abbrev State.RelayWriteFails (s : State) (c : Command) : Prop := c ≠ .unrecognized ∧ s.inp.drvFault = true

/-- The dispatch step on a decoded line with room for its echo, as a record (R126 to R129). -/
theorem dispatchAs_eq {c : Command} {t : List Byte} {ovf : Bool} (hlife : s.life = .running) (hpend : s.linePend = true)
    (hroom : 16 + t.length ≤ s.txFree) : dispatchAs c t ovf s = { s with
      relay := relayAfter c s.relay, txq := s.txq ++ echo t, lastCmd := Command.code c, lineCount := s.lineCount + 1,
      rxOverlong := s.rxOverlong || ovf, lineLen := 0, lineOvf := false, linePend := false, cp := 0,
      life := if s.RelayWriteFails c then .fatal else s.life,
      errCode := if s.RelayWriteFails c then 8 else s.errCode,
      errInfo := if s.RelayWriteFails c then 1 else s.errInfo } := by
  rw [dispatchAs_of_canDispatch c ovf (canDispatch_iff.2 ⟨hlife, hpend, hroom⟩)]
  cases c with
  | turnOn | turnOff => simp [applyCommand, checkDriver_eq, finishLine, relayAfter, State.RelayWriteFails]
  | unrecognized => simp [applyCommand, finishLine, relayAfter, State.RelayWriteFails]

/-! ### The echo queue (R131) -/

/-- With a ready receiver the head of the queue, if it has one, leaves. -/
theorem exec_txDepart_of_ready (h : s.inp.txReady = true) : exec .txDepart s = .next { s with txq := s.txq.tail } := by
  by_cases hempty : s.txq = []
  · rw [show s.txq.tail = s.txq by simp [hempty]]
    exact execTxDepart_of_idle (.inl hempty)
  · refine congrArg Host.Outcome.next (if_pos ?_)
    simp [State.txValid, hempty, h]

end Sys2Proof.Machine

namespace Sys2Proof.Proofs

open Sys2Proof Sys2Proof.Machine Sys2Proof.Laws

/-- Settles O42: a byte that is not taken, and the three things that become of one that is. -/
theorem rxAccept : Obligations.RxAccept := by
  intro s b hwf ready room
  by_cases hready : ready
  · by_cases hb : b = 0x0A
    · subst hb
      exact ⟨_, exec_rxAccept_lf (rxReady_iff.2 hready), by simp [hready], fun j => by simp⟩
    · by_cases hroom : room
      · refine ⟨_, exec_rxAccept_of_room (rxReady_iff.2 hready) hb hroom, ?_, fun j => ?_⟩
        · rw [if_neg (not_and_of_not_right _ hb), if_pos ⟨hready, hb, hroom⟩, if_neg fun h => h.2.2 hroom]
        · simp only [hready, hroom, Ne, hb, Mem.read_write _ hwf, not_false_eq_true, true_and]
      · refine ⟨_, exec_rxAccept_of_full (rxReady_iff.2 hready) hb hroom, ?_, fun j => ?_⟩
        · rw [if_neg (not_and_of_not_right _ hb), if_neg fun h => hroom h.2.2, if_pos ⟨hready, hb, hroom⟩]
        · rw [if_neg fun h => hroom h.2.2.1]
  · exact ⟨s, execRxAccept_of_not_ready b hready, by simp [hready], fun j => by simp [hready]⟩

/-- Settles O45: the dispatch step's record, for the two commands that write the relay. -/
theorem onAndOffLines : Obligations.OnAndOffLines := by
  refine ⟨fun kept => ⟨decodeLine_of_strip_eq_on, decodeLine_of_strip_eq_off⟩,
    fun s hlife hpend => ⟨fun hroom => ?on, fun hroom => ?off⟩⟩
  case on =>
    refine congrArg Host.Outcome.next ((dispatchAs_eq (t := onBytes) hlife hpend hroom).trans ?_)
    simp [relayAfter, Command.code, State.RelayWriteFails, onBytes, hlife]
  case off =>
    refine congrArg Host.Outcome.next ((dispatchAs_eq (t := offBytes) hlife hpend hroom).trans ?_)
    simp [relayAfter, Command.code, State.RelayWriteFails, offBytes, hlife]

/-- Settles O46: the dispatch step's record, for the command that does not write the relay. -/
theorem otherLines : Obligations.OtherLines := by
  refine ⟨fun kept ovf => decodeLine_of_other, fun s t ovf hlife hpend hroom => ?_⟩
  refine congrArg Host.Outcome.next ((dispatchAs_eq hlife hpend hroom).trans ?_)
  simp [relayAfter, Command.code, State.RelayWriteFails]

/-- Settles O48: the byte at the head of the queue is the one shown and the one that leaves. -/
theorem txDepart : Obligations.TxDepart := by
  intro s b q hq
  refine ⟨by simp [State.txData, hq], by simp [State.txValidOut, State.txValid, hq], fun hready => ⟨?_, List.isEmpty_iff⟩⟩
  rw [exec_txDepart_of_ready hready, hq, List.tail_cons]

end Sys2Proof.Proofs
end

section
/-! PROOFS. R133, R134: control lines from the first byte to the last echo byte, one line after the other. -/

namespace Sys2Proof.Machine

open Sys2Proof.Laws

variable {s : State}

/-! ### Receiving a line (R125) -/

/-- `s` after the content bytes `l` of a line: the first LINE_MAX are in the buffer, more mark the line overlong. -/
def State.received (s : State) (l : List Byte) : State :=
  { s with lineBuf := Mem.writeList (w := 8) s.lineBuf 0 (l.take s.cfg.lineMax),
           lineLen := BitVec.ofNat 16 (l.take s.cfg.lineMax).length, lineOvf := decide (s.cfg.lineMax < l.length) }

theorem received_nil (hlen : s.lineLen = 0) (hovf : s.lineOvf = false) : s.received [] = s := by
  have hnil : s.received [] = { s with lineLen := 0, lineOvf := false } := by simp [State.received, Mem.writeList]
  rw [hnil, ← hlen, ← hovf]

/-- R7, R55: `line_len` can count to LINE_MAX. -/
theorem received_lineLen (hmax : s.cfg.lineMax ≤ 65535) (l : List Byte) :
    (s.received l).lineLen.toNat = (l.take s.cfg.lineMax).length :=
  Nat.mod_eq_of_lt (by simp; omega)

/-- One more content byte (R125). -/
theorem exec_rxAccept_received {l : List Byte} {b : Byte} (hready : s.rxReady = true) (hmax : s.cfg.lineMax ≤ 65535)
    (hb : b ≠ lfByte) : exec (.rxAccept b) (s.received l) = .next (s.received (l ++ [b])) := by
  have hlen := received_lineLen hmax l
  by_cases hroom : l.length < s.cfg.lineMax
  · rw [List.take_of_length_le hroom.le] at hlen
    have htake : (l ++ [b]).take s.cfg.lineMax = l ++ [b] := List.take_of_length_le (by simpa using hroom)
    rw [exec_rxAccept_of_room (s := s.received l) hready hb (hlen.trans_lt hroom), hlen]
    simp [State.received, htake, List.take_of_length_le hroom.le, Mem.writeList_append, Mem.writeList, BitVec.ofNat_add]
    omega
  · have htake : (l ++ [b]).take s.cfg.lineMax = l.take s.cfg.lineMax := List.take_append_of_le_length (not_lt.1 hroom)
    have hfull : (l.take s.cfg.lineMax).length = s.cfg.lineMax := by simpa using hroom
    rw [exec_rxAccept_of_full (s := s.received l) hready hb (hlen.trans hfull).not_lt]
    simp [State.received, htake]
    omega

theorem runInstrs_rxBytes_received {l bs : List Byte} (hready : s.rxReady = true) (hmax : s.cfg.lineMax ≤ 65535)
    (hbs : lfByte ∉ bs) : runInstrs (rxBytes bs) (s.received l) = .next (s.received (l ++ bs)) := by
  induction bs generalizing l with
  | nil => rw [List.append_nil]; rfl
  | cons b bs ih =>
    obtain ⟨hb, hbs⟩ := List.ne_and_not_mem_of_not_mem_cons hbs
    rw [rxBytes, List.map_cons, runInstrs_cons (exec_rxAccept_received hready hmax (Ne.symm hb))]
    exact (ih hbs).trans (by rw [List.append_assoc, List.singleton_append])

/-- `s` after a line with content `l` and its LF. -/
def State.lineWaiting (s : State) (l : List Byte) : State := { s.received l with linePend := true }

/-- The buffer holds the line that was stored in it. -/
theorem lineBytes_writeList {m : List Host.Cell} (hm : Mem.wf (w := 8) m = true) (l : List Byte) :
    lineBytes (Mem.writeList (w := 8) m 0 l) l.length = l := by
  refine List.ext_getElem (by simp [lineBytes]) fun i _ hi => ?_
  simp [lineBytes, Mem.read_writeList l m 0 i hm, hi]

/-! ### Sending the echo (R131) -/

theorem runInstrs_txDeparts (n : Nat) (h : s.inp.txReady = true) :
    runInstrs (List.replicate n .txDepart) s = .next { s with txq := s.txq.drop n } := by
  induction n generalizing s with
  | zero => rfl
  | succ n ih =>
    rw [List.replicate_succ, runInstrs_cons (exec_txDepart_of_ready h), ← List.drop_tail]
    exact ih h

/-! ### A line, and lines one after the other (R133, R134) -/

/-- RUNNING, the receiver and the echo queue idle, a ready receiver at the other end and no driver fault. -/
structure State.AwaitsLine (s : State) : Prop where
  cfg : s.cfg.Valid
  lineBuf : Mem.wf (w := 8) s.lineBuf = true
  life : s.life = .running
  lineLen : s.lineLen = 0
  lineOvf : s.lineOvf = false
  linePend : s.linePend = false
  txq : s.txq = []
  drvFault : s.inp.drvFault = false
  txReady : s.inp.txReady = true

/-- What the content bytes `l` of a line decode to: those beyond LINE_MAX are lost, and make the line overlong (R89, R125). -/
def lineCommand (p : Params) (l : List Byte) : Command × List Byte :=
  decodeCommand (l.take p.lineMax) (decide (p.lineMax < l.length))

/-- `s` after a line with content `l` was received, dispatched and its echo sent. -/
def State.afterLine (s : State) (l : List Byte) : State :=
  { s.received l with
    relay := relayAfter (lineCommand s.cfg l).1 s.relay, lastCmd := Command.code (lineCommand s.cfg l).1,
    lineCount := s.lineCount + 1, rxOverlong := s.rxOverlong || decide (s.cfg.lineMax < l.length), lineLen := 0,
    lineOvf := false, linePend := false, txq := [], cp := 0 }

theorem State.AwaitsLine.afterLine (h : s.AwaitsLine) (l : List Byte) : (s.afterLine l).AwaitsLine :=
  ⟨h.cfg, Mem.wf_writeList _ _ _ h.lineBuf, h.life, rfl, rfl, rfl, rfl, h.drvFault, h.txReady⟩

/-- The echo of a line that the buffer holds fits into an empty queue (R8). -/
theorem echo_lineCommand_le (h : s.cfg.Valid) (l : List Byte) : (echo (lineCommand s.cfg l).2).length ≤ s.cfg.txDepth := by
  obtain ⟨-, -, hdepth, -⟩ := h
  have hstrip : (strip (l.take s.cfg.lineMax)).length ≤ s.cfg.lineMax :=
    (strip_isInfix _).length_le.trans (List.length_take_le _ _)
  rw [echo_length]
  exact (Nat.add_comm _ _).trans_le ((Nat.add_le_add_right hstrip 16).trans hdepth)

/-- The dispatch step queues the echo of the line that waits, and has room for it (R126). -/
theorem exec_dispatch_lineWaiting (h : s.AwaitsLine) (l : List Byte) :
    exec .dispatch (s.lineWaiting l) = .next { s.afterLine l with txq := echo (lineCommand s.cfg l).2 } := by
  obtain ⟨-, ⟨-, hmax⟩, -⟩ := id h.cfg
  have hlen := received_lineLen hmax l
  have hline : decodeCommand (lineBytes (s.received l).lineBuf (s.received l).lineLen.toNat) (s.received l).lineOvf =
      ((lineCommand s.cfg l).1, (lineCommand s.cfg l).2) := by
    rw [hlen]
    exact congrArg (decodeCommand · _) (lineBytes_writeList h.lineBuf _)
  have hroom : 16 + (lineCommand s.cfg l).2.length ≤ s.txFree := by
    rw [State.txFree, h.txq, ← echo_length]
    exact echo_lineCommand_le h.cfg l
  rw [exec_dispatch_of_decodeCommand (s := s.lineWaiting l) h.life rfl (hlen.trans_le (List.length_take_le _ _)) hline,
    dispatchAs_eq (s := s.lineWaiting l) h.life rfl hroom]
  simp [State.RelayWriteFails, State.lineWaiting, State.received, State.afterLine, h.drvFault, h.txq]

theorem runInstrs_lineProgram (h : s.AwaitsLine) {l : List Byte} (hl : lfByte ∉ l) :
    runInstrs (lineProgram l s.cfg.txDepth) s = .next (s.afterLine l) := by
  obtain ⟨-, ⟨-, hmax⟩, -⟩ := id h.cfg
  have hready : s.rxReady = true := rxReady_iff.2 ⟨h.life, h.linePend⟩
  have hrx : runInstrs (rxBytes l) s = .next (s.received l) := by
    have hrun := runInstrs_rxBytes_received (l := []) hready hmax hl
    rwa [received_nil h.lineLen h.lineOvf, List.nil_append] at hrun
  have hlf : exec (.rxAccept lfByte) (s.received l) = .next (s.lineWaiting l) := exec_rxAccept_lf hready
  have hsent : (echo (lineCommand s.cfg l).2).drop s.cfg.txDepth = [] :=
    List.drop_of_length_le (echo_lineCommand_le h.cfg l)
  calc runInstrs (lineProgram l s.cfg.txDepth) s
    _ = runInstrs (.rxAccept lfByte :: .dispatch :: List.replicate s.cfg.txDepth .txDepart) (s.received l) := by
      rw [lineProgram, List.append_assoc, runInstrs_append hrx]
      rfl
    _ = runInstrs (.dispatch :: List.replicate s.cfg.txDepth .txDepart) (s.lineWaiting l) := runInstrs_cons hlf
    _ = runInstrs (List.replicate s.cfg.txDepth .txDepart) { s.afterLine l with txq := echo (lineCommand s.cfg l).2 } :=
      runInstrs_cons (exec_dispatch_lineWaiting h l)
    _ = .next { s.afterLine l with txq := (echo (lineCommand s.cfg l).2).drop s.cfg.txDepth } :=
      runInstrs_txDeparts _ h.txReady
    _ = .next (s.afterLine l) := by rw [hsent]; rfl

theorem runInstrs_lines (h : s.AwaitsLine) {ls : List (List Byte)} (hls : ∀ l ∈ ls, lfByte ∉ l) :
    runInstrs (ls.flatMap fun l => lineProgram l s.cfg.txDepth) s = .next (ls.foldl State.afterLine s) := by
  induction ls generalizing s with
  | nil => rfl
  | cons l ls ih =>
    obtain ⟨hl, hls⟩ := List.forall_mem_cons.1 hls
    rw [List.flatMap_cons, runInstrs_append (runInstrs_lineProgram h hl)]
    exact ih (h.afterLine l) hls

theorem State.AwaitsLine.foldl_afterLine (h : s.AwaitsLine) (ls : List (List Byte)) :
    (ls.foldl State.afterLine s).AwaitsLine :=
  List.foldlRecOn ls State.afterLine h fun _ hu l _ => hu.afterLine l

/-- What a list of lines leaves in the relay, the line count and the playback registers. -/
theorem foldl_afterLine (ls : List (List Byte)) (s : State) :
    (ls.foldl State.afterLine s).relay = ls.foldl (fun r l => relayAfter (lineCommand s.cfg l).1 r) s.relay ∧
    (ls.foldl State.afterLine s).lineCount = s.lineCount + BitVec.ofNat 32 ls.length ∧
    (ls.foldl State.afterLine s).pwm0Duty = s.pwm0Duty ∧ (ls.foldl State.afterLine s).timeIndex = s.timeIndex := by
  induction ls generalizing s with
  | nil => simp
  | cons l ls ih =>
    obtain ⟨hrelay, hcount, hplayback⟩ := ih (s.afterLine l)
    refine ⟨hrelay, hcount.trans ?_, hplayback⟩
    rw [List.length_cons, Nat.add_comm, BitVec.ofNat_add, ← BitVec.add_assoc]
    rfl

end Sys2Proof.Machine

namespace Sys2Proof.Proofs

open Sys2Proof Sys2Proof.Machine

/-- Settles O49, by induction on the lines, each from an idle RUNNING state to an idle RUNNING state. -/
theorem linesSetTheRelay : Obligations.LinesSetTheRelay := by
  intro lines s hcfg hwf hlife hlen hovf hpend htxq hdrv hready hlines
  have h : s.AwaitsLine := ⟨hcfg, hwf, hlife, hlen, hovf, hpend, htxq, hdrv, hready⟩
  have hend := h.foldl_afterLine lines
  obtain ⟨hrelay, hcount, hduty, hindex⟩ := foldl_afterLine lines s
  exact ⟨_, runInstrs_lines h hlines, hrelay, hcount, hend.life, hend.txq, hend.linePend, hduty, hindex⟩

end Sys2Proof.Proofs
end

section
/-! PROOFS. R135 to R138: the accesses that are refused, and the words that decode to them. -/

namespace Sys2Proof.Laws

/-- A register's offset is aligned and below 0x60 (R26). -/
theorem offset_mapped (r : Reg) : r.offset.toNat % 4 = 0 ∧ r.offset.toNat < 0x60 := by
  cases r <;> decide

end Sys2Proof.Laws

namespace Sys2Proof.Machine

open Sys2Proof.Laws

/-- A write word is refused unless it is a full write of a register (R91). -/
theorem exec_decodeW_refused {wstrb : BitVec 4} {addr : BitVec 8} (wdata : Word) (s : State)
    (h : addr.toNat % 4 ≠ 0 ∨ wstrb ≠ 0xF#4 ∨ 0x60 ≤ addr.toNat) :
    exec (decodeW wstrb addr wdata) s = .next (refuseAccess s) := by
  rcases decodeW_cases wstrb addr wdata with ⟨-, hdec⟩ | ⟨-, -, hdec⟩ | ⟨-, -, -, hdec⟩ | ⟨r, rfl, rfl, -⟩
  case inl | inr.inl | inr.inr.inl => rw [hdec]; rfl
  case inr.inr.inr =>
    obtain ⟨halign, hlt⟩ := offset_mapped r
    rcases h with hmis | hstrb | hge
    · exact absurd halign hmis
    · exact absurd rfl hstrb
    · omega

/-- A read word is refused unless it is the offset of a register (R91). -/
theorem exec_decodeR_refused {addr : BitVec 8} (s : State) (h : addr.toNat % 4 ≠ 0 ∨ 0x60 ≤ addr.toNat) :
    exec (decodeR addr) s = .next (refuseAccess s) := by
  rcases decodeR_cases addr with ⟨-, hdec⟩ | ⟨-, -, hdec⟩ | ⟨r, rfl, -⟩
  case inl | inr.inl => rw [hdec]; rfl
  case inr.inr =>
    have hmapped := offset_mapped r
    omega

end Sys2Proof.Machine

namespace Sys2Proof.Proofs

open Sys2Proof Sys2Proof.Machine Sys2Proof.Laws

/-- Settles O15: every word that is no full access to a register is refused. -/
theorem refusedAccessesChangeNothing : Obligations.RefusedAccessesChangeNothing := by
  intro s wstrb addr wdata t w
  have hwrite (h : addr.toNat % 4 ≠ 0 ∨ wstrb ≠ 0xF#4 ∨ 0x60 ≤ addr.toNat) : exec (decode w) s = .next t :=
    (decode_buswWord wstrb addr wdata).symm ▸ exec_decodeW_refused wdata s h
  exact ⟨⟨rfl, rfl, rfl, rfl, rfl⟩, fun hmis => ⟨hwrite (.inl hmis), exec_decodeR_refused s (.inl hmis)⟩,
    fun _ hstrb => hwrite (.inr (.inl hstrb)), fun _ _ hge => hwrite (.inr (.inr hge)),
    fun _ hge => exec_decodeR_refused s (.inr hge)⟩

end Sys2Proof.Proofs
end

section
/-! PROOFS. R140 to R142: the reads of the write-only registers and of the two windows. -/

namespace Sys2Proof.Machine

variable {s : State}

/-- A write-only register reads 0, and nothing else changes (R140). -/
theorem exec_rdWo (r : Reg) (s : State) : exec (.rdWo r) s = .next (respond 0 s) := rfl

theorem writeOnly_iff (r : Reg) : r.writeOnly = true ↔ r = .cmd ∨ r = .loadData := by
  cases r <;> simp [Reg.writeOnly]

/-- With LEN within the capacity, LUT_DATA has a value at every TBL_ADDR (R36, R141). -/
theorem lutWindow_of_len_le (hlen : s.len.toNat ≤ s.cfg.dataCap) : s.lutWindow = some
    (if s.lutValid = true ∧ s.tblAddr.toNat < s.len.toNat then (s.lut.read s.tblAddr.toNat).setWidth 32 else 0) := by
  rw [lutWindow_eq]
  split
  case isTrue hshown => exact if_pos (hshown.2.trans_le hlen)
  case isFalse => rfl

/-- With LEN within the capacity, SAMPLE_DATA has a value at every TBL_ADDR (R36, R142). -/
theorem sampleWindow_of_len_le (hlen : s.len.toNat ≤ s.cfg.dataCap) : s.sampleWindow = some
    (if s.tblAddr.toNat < s.len.toNat ∧ 4 + 4 * (s.tblAddr.toNat + 1) ≤ s.pos.toNat then s.sample.read s.tblAddr.toNat
      else 0) := by
  rw [sampleWindow_eq]
  split
  case isTrue hshown => exact if_pos (hshown.1.trans_le hlen)
  case isFalse => rfl

theorem exec_rdLut_of_lutWindow {v : Word} (h : s.lutWindow = some v) : exec .rdLut s = .next (respond v s) := by
  rw [exec, execRdLut, h]

theorem exec_rdSample_of_sampleWindow {v : Word} (h : s.sampleWindow = some v) :
    exec .rdSample s = .next (respond v s) := by
  rw [exec, execRdSample, h]

end Sys2Proof.Machine

namespace Sys2Proof.Proofs

open Sys2Proof Sys2Proof.Machine Sys2Proof.Laws

/-- Settles O12. -/
theorem writeOnlyRegistersReadZero : Obligations.WriteOnlyRegistersReadZero :=
  ⟨fun s r _ => exec_rdWo r s, writeOnly_iff, (decodeR_offset .cmd).trans (decodeRegRead_of_writeOnly rfl),
    (decodeR_offset .loadData).trans (decodeRegRead_of_writeOnly rfl)⟩

/-- Settles O13: an entry that the window shows is below LEN, so the LUT has it. -/
theorem lutWindowRead : Obligations.LutWindowRead :=
  fun _ hlen => exec_rdLut_of_lutWindow (lutWindow_of_len_le hlen)

/-- Settles O14: a sample that the window shows is below LEN, so the memory has it. -/
theorem sampleWindowRead : Obligations.SampleWindowRead :=
  fun _ hlen => exec_rdSample_of_sampleWindow (sampleWindow_of_len_le hlen)

end Sys2Proof.Proofs
end

section
/-! PROOFS. R143 to R149: the writes that touch nothing, a sticky bit, TBL_ADDR or IRQ_EN, and the illegal operations. -/

namespace Sys2Proof.Machine

variable {s : State}

/-- A write to a read-only register only completes (R143). -/
theorem exec_wrRo (r : Reg) (v : Word) (s : State) : exec (.wrRo r v) s = .next (respond 0 s) := rfl

/-- NOP only completes (R147). -/
theorem exec_nop (s : State) : exec .nop s = .next (respond 0 s) := rfl

/-- R143: the registers that take a write, by name. -/
theorem readOnly_eq_false_iff (r : Reg) :
    r.readOnly = false ↔ r ∈ [Reg.cmd, .status, .loadData, .maxBright, .dynRange, .tblAddr, .irqEn] := by
  cases r <;> simp [Reg.readOnly]

/-- An illegal command only sets CMD_ERR (R148). -/
theorem exec_cmdIllegal (v : Word) (s : State) : exec (.cmdIllegal v) s = .next (respond 0 (flagCmdErr s)) := rfl

/-- A gated write outside its states only sets CMD_ERR (R149). -/
theorem completeWrite_gated_of_illegal {legal : Bool} (effect : State → Result) (h : ¬legal = true) :
    completeWrite (gated legal effect s) = .next (respond 0 (flagCmdErr s)) := by
  rw [gated_eq, if_neg h, completeWrite_next]

/-- Outside LOAD and LOADED neither configuration register can be written (R102, R103). -/
theorem exec_configWrite_of_closed (v : Word) (hload : s.life ≠ .load) (hloaded : s.life ≠ .loaded) :
    exec (.wrMaxBright v) s = .next (respond 0 (flagCmdErr s)) ∧
    exec (.wrDynRange v) s = .next (respond 0 (flagCmdErr s)) :=
  have hclosed : ¬s.configOpen = true := mt configOpen_iff.1 (not_or_intro hload hloaded)
  ⟨completeWrite_gated_of_illegal _ hclosed, completeWrite_gated_of_illegal _ hclosed⟩

/-- Outside LOADED, SCALE only sets CMD_ERR (R104). -/
theorem exec_scale_of_ne_loaded (hlife : s.life ≠ .loaded) : exec .scale s = .next (respond 0 (flagCmdErr s)) :=
  completeWrite_gated_of_illegal _ (mt beq_iff_eq.1 hlife)

/-- Clearing a sticky bit where 1 is written to it (R144). -/
theorem and_not_eq_ite (sticky written : Bool) : (sticky && !written) = if written then false else sticky := by
  cases written
  · exact Bool.and_true sticky
  · exact Bool.and_false sticky

/-- The sticky bits that STATUS is written 1 to are cleared, and nothing else changes (R144). -/
theorem exec_wrStatus (v : Word) (s : State) : exec (.wrStatus v) s = .next (respond 0 { s with
    cmdErr := if v.getLsbD 8 then false else s.cmdErr, rxOverlong := if v.getLsbD 9 then false else s.rxOverlong }) := by
  rw [← and_not_eq_ite, ← and_not_eq_ite]
  rfl

theorem exec_wrTblAddr (v : Word) (s : State) : exec (.wrTblAddr v) s = .next (respond 0 { s with tblAddr := v }) := rfl

theorem exec_wrIrqEn (v : Word) (s : State) :
    exec (.wrIrqEn v) s = .next (respond 0 { s with fatalIe := v.getLsbD 0 }) := rfl

theorem irq_iff : s.irq = true ↔ s.life = .fatal ∧ s.fatalIe = true := by
  simp [State.irq]

end Sys2Proof.Machine

namespace Sys2Proof.Proofs

open Sys2Proof Sys2Proof.Machine Sys2Proof.Laws

/-- Settles O16. -/
theorem nopAndReadOnlyWritesHaveNoEffect : Obligations.NopAndReadOnlyWritesHaveNoEffect :=
  ⟨fun s r v _ => ⟨exec_wrRo r v s, exec_nop s⟩,
    fun r v hro => (decode_fullWrite r v).trans (decodeRegWrite_of_readOnly v hro), readOnly_eq_false_iff,
    decode_fullWrite .cmd 0⟩

/-- Settles O17, gate by gate. -/
theorem illegalOperationsOnlySetCmdErr : Obligations.IllegalOperationsOnlySetCmdErr := fun s v b ig =>
  ⟨exec_cmdIllegal v s, fun hgt => (decode_fullWrite .cmd v).trans (decodeCmd_of_gt hgt),
    fun hlife => ⟨exec_ldb_of_ne_load b ig hlife, exec_loadCommit_of_ne_load hlife⟩,
    exec_configWrite_of_closed v, exec_scale_of_ne_loaded, exec_start_of_ne_scaled⟩

/-- Settles O18. -/
theorem statusWriteClearsStickyBits : Obligations.StatusWriteClearsStickyBits :=
  fun s v => ⟨decode_fullWrite .status v, exec_wrStatus v s⟩

/-- Settles O19: `irq` is a function of the lifecycle state and of the bit that is stored. -/
theorem tableAddressAndInterruptEnableWrites : Obligations.TableAddressAndInterruptEnableWrites := fun s v =>
  ⟨decode_fullWrite .tblAddr v, decode_fullWrite .irqEn v, exec_wrTblAddr v s, exec_wrIrqEn v s, irq_iff⟩

end Sys2Proof.Proofs
end

section
/-! PROOFS. A bus word placed by `withFetchWord` is the next access of the host (log 1). -/

namespace Sys2Proof.Laws

/-- A number of at most 44 bits is a write word, stored in six bytes (R79, R80). -/
theorem wireOfBits_write {w : Nat} (h : w < 2 ^ 44) : wireOfBits 48 w = .ok (.busw (BitVec.ofNat 44 w)) := by
  rw [wireOfBits, if_neg (by decide), if_pos (by decide), if_pos h]

/-- One byte is a read word (R81). -/
theorem wireOfBits_read (w : Nat) : wireOfBits 8 w = .ok (.busr (BitVec.ofNat 8 w)) := rfl

end Sys2Proof.Laws

namespace Sys2Proof.Machine

open Sys2Proof.Laws

theorem withFetchWord_of_wireOfBits {nbits w : Nat} {x : Wire} (s : State) (h : wireOfBits nbits w = .ok x) :
    s.withFetchWord nbits w = s.placeWire x := by
  rw [State.withFetchWord, h]

/-- The levels of a placed write are the fields of its word. -/
theorem fetch_hostTurn_busw (p : Inputs) (w : BitVec 44) :
    fetch (hostTurn p (.busw w)).agent (hostTurn p (.busw w)).inputs = .run (decode (.busw w)) := by
  have hwire : busWireOf (hostTurn p (.busw w)).inputs = .busw w := congrArg Wire.busw (buswWord_fields w)
  exact (fetch_host_of_busValid rfl rfl).trans (congrArg (Fetched.run ∘ decode) hwire)

theorem fetch_hostTurn_busr (p : Inputs) (a : BitVec 8) :
    fetch (hostTurn p (.busr a)).agent (hostTurn p (.busr a)).inputs = .run (decode (.busr a)) :=
  fetch_host_of_busValid rfl rfl

theorem nextTurn_placeWire (x : Wire) (s : State) : (s.placeWire x).nextTurn = hostTurn s.inp x := by
  cases x <;> rfl

/-- A placed word whose turn fetches it is run by the next step. -/
theorem step_withFetchWord {nbits w : Nat} {x : Wire} (s : State) (hwire : wireOfBits nbits w = .ok x)
    (hfetch : fetch (hostTurn s.inp x).agent (hostTurn s.inp x).inputs = .run (decode x)) :
    step (s.withFetchWord nbits w) = exec (decode x) (s.withFetchWord nbits w).takeTurn := by
  rw [withFetchWord_of_wireOfBits s hwire]
  exact step_of_fetch_run (by rw [nextTurn_placeWire, hfetch])

end Sys2Proof.Machine

namespace Sys2Proof.Proofs

open Sys2Proof Sys2Proof.Machine Sys2Proof.Laws

/-- Settles O8: the placed turn offers the word, and is the next one. -/
theorem placedBusWordRunsNext : Obligations.PlacedBusWordRunsNext := fun s w =>
  ⟨fun hlt => step_withFetchWord s (wireOfBits_write hlt) (fetch_hostTurn_busw _ _),
    fun _ => step_withFetchWord s (wireOfBits_read w) (fetch_hostTurn_busr _ _)⟩

end Sys2Proof.Proofs
end

section
/-! PROOFS. R156 to R158: fatal entry, and what can still move in FATAL: the sticky bits, TBL_ADDR, IRQ_EN, the echo queue,
the PWM generator and the bus response. -/

namespace Sys2Proof.Machine

/-- `s` with the fields that FATAL leaves open (R157), and the environment's (log 1), as they stand in `t`. -/
def State.withOpenFieldsOf (s t : State) : State :=
  { s with cmdErr := t.cmdErr, rxOverlong := t.rxOverlong, tblAddr := t.tblAddr, fatalIe := t.fatalIe, txq := t.txq,
           presc := t.presc, pwmCnt := t.pwmCnt, active0 := t.active0, active1 := t.active1,
           busReady := t.busReady, busErr := t.busErr, busRdata := t.busRdata,
           inp := t.inp, schedule := t.schedule, envCount := t.envCount }

/-- From `s` to `t` nothing has moved but what FATAL leaves open. -/
def MovesOpenFields (s t : State) : Prop := t = s.withOpenFieldsOf t

variable {s t u : State}

theorem MovesOpenFields.trans (hsu : MovesOpenFields s u) (hut : MovesOpenFields u t) : MovesOpenFields s t :=
  Eq.trans hut (congrArg (·.withOpenFieldsOf t) hsu)

theorem movesOpenFields_takeTurn (s : State) : MovesOpenFields s s.takeTurn := by
  unfold State.takeTurn
  split <;> rfl

/-! ### The operations in FATAL -/

theorem nextMeets_of_eq_next {P : State → Prop} {r : Result} (h : r = .next t) (ht : P t) : NextMeets P r :=
  h ▸ nextMeets_next.2 ht

/-- An operation that has no step in this state moves nothing (log 6). -/
theorem movesOpenFields_of_disabled {r : Result} (h : r = .next s) : NextMeets (MovesOpenFields s) r :=
  nextMeets_of_eq_next h rfl

/-- A command or write that is not legal in this state moves CMD_ERR and the bus response (R149). -/
theorem movesOpenFields_of_illegal {r : Result} (h : r = .next (respond 0 (flagCmdErr s))) :
    NextMeets (MovesOpenFields s) r :=
  nextMeets_of_eq_next h rfl

/-- R157, R158: in FATAL the gated writes are illegal, and the loader, scaler, player, receiver and dispatch steps
disabled; only RESET leaves it. -/
theorem exec_movesOpenFields_of_fatal (i : Instr) (hi : i ≠ .reset) (hfatal : s.life = .fatal) :
    NextMeets (MovesOpenFields s) (exec i s) := by
  have hlife {l : Lifecycle} (hl : .fatal ≠ l) : s.life ≠ l := hfatal ▸ hl
  have hscaling : s.life ≠ .scaling := hlife nofun
  have hrunning : s.life ≠ .running := hlife nofun
  have hguard {p : Prop} : ¬(s.life = .running ∧ p) := fun h => hrunning h.1
  cases i with
  | busMisalignedW | busMisalignedR | busPartial | busUnmappedW | busUnmappedR | nop | wrRo | cmdIllegal | wrStatus
  | wrTblAddr | wrIrqEn | rd | rdWo | pwmReload => exact nextMeets_next.2 rfl
  | rdLut => exact nextMeets_execRdLut fun _ => rfl
  | rdSample => exact nextMeets_execRdSample fun _ => rfl
  | wrMaxBright v => exact movesOpenFields_of_illegal (exec_configWrite_of_closed v (hlife nofun) (hlife nofun)).1
  | wrDynRange v => exact movesOpenFields_of_illegal (exec_configWrite_of_closed v (hlife nofun) (hlife nofun)).2
  | ldb b ig => exact movesOpenFields_of_illegal (exec_ldb_of_ne_load b ig (hlife nofun))
  | loadCommit => exact movesOpenFields_of_illegal (exec_loadCommit_of_ne_load (hlife nofun))
  | scale => exact movesOpenFields_of_illegal (exec_scale_of_ne_loaded (hlife nofun))
  | start => exact movesOpenFields_of_illegal (exec_start_of_ne_scaled (hlife nofun))
  | scalerStep => exact movesOpenFields_of_disabled (if_neg hscaling)
  | tickDue => exact movesOpenFields_of_disabled (congrArg _ (if_neg hrunning))
  | tickStep | dispatch => exact movesOpenFields_of_disabled (if_neg hguard)
  | rxAccept b => exact movesOpenFields_of_disabled (execRxAccept_of_not_ready b hguard)
  | lineOn | lineOff | lineOther =>
    exact movesOpenFields_of_disabled (congrArg _ (dispatchAs_of_not_pending _ _ _ hguard))
  | txDepart =>
    refine nextMeets_next.2 ?_
    split <;> rfl
  | reset => exact absurd rfl hi

/-! ### A step in FATAL -/

/-- Outside RUNNING the timebase and the poll timer stand still (R120, R130). -/
theorem clockCycle_of_ne_running (h : s.life ≠ .running) : clockCycle s = { clockPwm s with busReady := false } := by
  rw [clockCycle, clockTimebase, if_neg h, clockPoll, if_neg h]

/-- R157: the PWM generator keeps running in FATAL; the other timers stand still. -/
theorem movesOpenFields_clockCycle_of_fatal (hfatal : s.life = .fatal) : MovesOpenFields s (clockCycle s) := by
  rw [clockCycle_of_ne_running (by simp [hfatal]), clockPwm_eq]
  rfl

theorem step_movesOpenFields_of_fatal (hfatal : s.life = .fatal) (hrst : s.nextTurn.inputs.rst = false) :
    NextMeets (MovesOpenFields s) (step s) := by
  have hturn := movesOpenFields_takeTurn s
  have hfatalTurn : s.takeTurn.life = .fatal := (State.takeTurn_life s).trans hfatal
  rcases step_cases (s := s) rfl with ⟨i, hfetch, heq⟩ | ⟨-, heq⟩ | ⟨-, heq⟩ <;> rw [heq]
  · have hi : i ≠ .reset := fun hreset => fetch_ne_reset _ hrst (hreset ▸ hfetch)
    exact fun t ht => hturn.trans (exec_movesOpenFields_of_fatal i hi hfatalTurn t ht)
  · exact nextMeets_next.2 (hturn.trans (movesOpenFields_clockCycle_of_fatal hfatalTurn))
  · exact nextMeets_next.2 hturn

end Sys2Proof.Machine

namespace Sys2Proof.Proofs

open Sys2Proof Sys2Proof.Machine

/-- Settles O52: none of the fields it lists is among those that FATAL leaves open. -/
theorem fatalIsLeftOnlyByReset : Obligations.FatalIsLeftOnlyByReset := by
  intro s t hfatal hrst hstep
  have hmoves : t = s.withOpenFieldsOf t := step_movesOpenFields_of_fatal hfatal hrst t hstep
  rw [hmoves]
  simp [State.withOpenFieldsOf, hfatal]

/-- Settles O51, cause by cause. -/
theorem fatalEntry : Obligations.FatalEntry := fun _ _ => ⟨rfl, rfl, rfl, rfl, rfl, rfl, rfl, rfl⟩

end Sys2Proof.Proofs
end

section
/-! PROOFS. R173, R174: what a reset leaves in the registers and on the ports, and that it meets the invariant. -/

namespace Sys2Proof.Machine

variable {s : State}

theorem exec_reset (s : State) : exec .reset s = .next (applyReset s) := rfl

/-! ### What closes a port or a window -/

/-- R125: outside RUNNING no byte is taken, whatever the level of `rst`. -/
theorem rxReadyOut_of_ne_running (hlife : s.life ≠ .running) : s.rxReadyOut = false := by
  rw [State.rxReadyOut, Bool.eq_false_iff.2 (mt rxReady_iff.1 fun h => hlife h.1), Bool.and_false]

/-- R131: an empty queue offers no byte, whatever the level of `rst`. -/
theorem txValidOut_of_txq_nil (htxq : s.txq = []) : s.txValidOut = false := by
  simp [State.txValidOut, State.txValid, htxq]

theorem busReadyOut_of_busReady (hready : s.busReady = false) : s.busReadyOut = false := by
  simp [State.busReadyOut, hready]

/-- R121: no count of the PWM period is below a duty of 0. -/
theorem pwmOut0_of_active0_zero (hactive : s.active0 = 0) : s.pwmOut0 = false := by
  simp [State.pwmOut0, hactive]

theorem pwmOut1_of_active1_zero (hactive : s.active1 = 0) : s.pwmOut1 = false := by
  simp [State.pwmOut1, hactive]

theorem irq_of_ne_fatal (hlife : s.life ≠ .fatal) : s.irq = false :=
  Bool.eq_false_iff.2 (mt irq_iff.1 fun h => hlife h.1)

/-- R141: the LUT window shows nothing before the scaler has filled the LUT. -/
theorem readValue_lutData_of_not_lutValid (hvalid : s.lutValid = false) : s.readValue .lutData = 0 := by
  have hwindow : s.lutWindow = some 0 := by rw [lutWindow_eq, if_neg (by simp [hvalid])]
  rw [State.readValue, hwindow, Option.getD_some]

/-- R142: the sample window shows nothing at or above LEN. -/
theorem readValue_sampleData_of_len_le (haddr : s.len.toNat ≤ s.tblAddr.toNat) : s.readValue .sampleData = 0 := by
  have hwindow : s.sampleWindow = some 0 := by rw [sampleWindow_eq, if_neg fun h => haddr.not_gt h.1]
  rw [State.readValue, hwindow, Option.getD_some]

/-! ### After a reset -/

/-- R174: after a reset only TX_EMPTY of STATUS is set. -/
theorem readValue_status_applyReset (s : State) : (applyReset s).readValue .status = 0x00000400 :=
  BitVec.eq_of_toNat_eq (applyReset s).statusWord_toNat

theorem readValue_loadPos_applyReset (s : State) : (applyReset s).readValue .loadPos = 0 := rfl

/-- R173, R174: after a reset the outputs are low and the handshakes closed, whatever the level of `rst`. -/
theorem outputs_low_applyReset (s : State) :
    (applyReset s).pwmOut0 = false ∧ (applyReset s).pwmOut1 = false ∧ (applyReset s).relayOut = false ∧
    (applyReset s).irq = false ∧ (applyReset s).rxReadyOut = false ∧ (applyReset s).txValidOut = false ∧
    (applyReset s).busReadyOut = false :=
  ⟨pwmOut0_of_active0_zero rfl, pwmOut1_of_active1_zero rfl, rfl, irq_of_ne_fatal nofun,
    rxReadyOut_of_ne_running nofun, txValidOut_of_txq_nil rfl, busReadyOut_of_busReady rfl⟩

/-- R174: after a reset neither window shows an entry, so what the memories hold is not seen. -/
theorem windows_closed_applyReset (s : State) :
    (applyReset s).readValue .lutData = 0 ∧ (applyReset s).readValue .sampleData = 0 :=
  ⟨readValue_lutData_of_not_lutValid rfl, readValue_sampleData_of_len_le (Nat.zero_le _)⟩

/-- The setting of log 2 keeps the bounds of R6 to R15. -/
theorem testParams_valid : Config.testParams.Valid := by decide

end Sys2Proof.Machine

namespace Sys2Proof.Proofs

open Sys2Proof Sys2Proof.Machine

/-- Settles O55: the stored registers stand in the record of `State.resetWith`; STATUS, the ports and the windows are
computed from them. -/
theorem resetValues : Obligations.ResetValues := by
  intro s
  obtain ⟨hpwm0, hpwm1, hrelay, hirq, hrx, htx, hbus⟩ := outputs_low_applyReset s
  obtain ⟨hlut, hsample⟩ := windows_closed_applyReset s
  refine ⟨applyReset s, exec_reset s, ?_⟩
  simp only [readValue_status_applyReset, readValue_loadPos_applyReset, hpwm0, hpwm1, hrelay, hirq, hrx, htx, hbus, hlut,
    hsample]
  simp [applyReset, State.resetWith, State.readValue, State.txData]

/-- Settles O57: the setting of `State.reset` is one of the valid ones. -/
theorem resetMeetsInv : Obligations.ResetMeetsInv :=
  ⟨fun _ => inv_resetWith, inv_resetWith testParams_valid⟩

end Sys2Proof.Proofs
end
